-- ==== Sys2Proof/Word.lean ====
section
/-! DEFINITION. The word types of the block: the 32-bit host word (10_state.md R16), the byte of the bus and
payload (20_memory.md R46) and the 16-bit grid cell (10_state.md R24). -/

namespace Sys2Proof

/-- A byte of the bus, of the payload port, or of one 8-bit colour channel. -/
abbrev Byte := BitVec 8

/-- A host register, a command word (10_state.md R16, 30_encoding.md R66). -/
abbrev Word := BitVec 32

/-- A colour in stored form `S = swap16(N)` (00_scope.md R14): what a grid cell and every colour operand holds. -/
abbrev PackedColor := BitVec 16

end Sys2Proof
end

