-- ==== Sys2Proof/Config.lean ====
section
/-! DEFINITION. The constants the source fixes (00_scope.md R5), the parameters fixed at construction (R6), the
shapes of the ports and of the environment's draws (10_state.md R30 to R32, R36), and the free values of
construction: opaque constants, so that nothing can be proved of what they are. -/

namespace Sys2Proof

/-- Columns of the panel and of each grid (R5). -/
abbrev WIDTH : Nat := 240
/-- Rows of the panel and of each grid (R5). -/
abbrev HEIGHT : Nat := 280
/-- Cells of each grid (R5). -/
abbrev NCELLS : Nat := 67200
/-- Bytes of one serialised row (R5). -/
abbrev ROW_BYTES : Nat := 480
/-- Bytes of a full frame (R5). -/
abbrev FRAME_BYTES : Nat := 134400
/-- Panel rows above the visible area (R5). -/
abbrev Y_OFFSET : Nat := 20
/-- The scanner's tolerance (R5). -/
abbrev SCAN_TOL : Nat := 2
/-- The floor of the elapsed-time sample, in ms (R5). -/
abbrev FPS_FLOOR_MS : Nat := 1

/-- One entry `(cmd, params, delay_ms)` of INIT_SEQ (R6, 45_protocol.md R136). -/
structure InitEntry where
  cmd     : Byte
  params  : List Byte
  delayMs : Nat
deriving DecidableEq, Repr, Inhabited

/-- The default of CMD_CASET (R6, 92_eei_decisions.md D12). -/
abbrev CMD_CASET_DEFAULT : Byte := 0x2A
/-- The default of CMD_RASET (R6, D12). -/
abbrev CMD_RASET_DEFAULT : Byte := 0x2B
/-- The default of CMD_RAMWR (R6, D12). -/
abbrev CMD_RAMWR_DEFAULT : Byte := 0x2C
/-- The default of DC_CMD_LEVEL: 0 (low), so that data is at 1 (high) (R6, D11). -/
abbrev DC_CMD_LEVEL_DEFAULT : Bool := false

/-- The parameters of R6, fixed at construction. A positive `maxChunk` is part of the type: R7 gives a
configuration with MAX_CHUNK = 0 no state at all. A configuration that names no command byte or no command level
takes R6's default for it; the other parameters have none. -/
structure Params where
  maxChunk    : PNat
  hasResetPin : Bool
  tRst1       : Nat
  tRst2       : Nat
  tRst3       : Nat
  initSeq     : List InitEntry
  cmdCaset    : Byte := CMD_CASET_DEFAULT
  cmdRaset    : Byte := CMD_RASET_DEFAULT
  cmdRamwr    : Byte := CMD_RAMWR_DEFAULT
  /-- The level of the mode line that marks a command byte; `false` is 0 (low), `true` is 1 (high). -/
  dcCmdLevel  : Bool := DC_CMD_LEVEL_DEFAULT
deriving DecidableEq, Repr, Inhabited

/-- One 24-bit source pixel, and the value `Channels` gives (20_memory.md R52, 40_color.md R88). -/
structure Rgb where
  r : Byte
  g : Byte
  b : Byte
deriving DecidableEq, Repr, Inhabited

/-- The payload port (10_state.md R30): the bytes the host offers, and what the port reads past their end.
The spec gives the host's bytes any length; `beyond` makes the port total without picking a value. -/
structure PayloadPort where
  bytes  : List Byte
  beyond : Byte
deriving DecidableEq, Repr, Inhabited

/-- The source port (R31): SRC_W, SRC_H and the pixels, row by row. `beyond` is what the port reads where the
listed rows hold no pixel inside the stated bounds. -/
structure SourcePort where
  width  : Nat
  height : Nat
  pixels : List (List Rgb)
  beyond : Rgb
deriving DecidableEq, Repr, Inhabited

/-- The I/O oracle's future draws (R36), `true` for `ok`: first the listed ones, then `beyond` for ever. Every
finite sequence of draws is such a value, under no law. -/
structure IoOracle where
  draws  : List Bool
  beyond : Bool
deriving DecidableEq, Repr, Inhabited

/-- The time port's future draws (R32), in ms: first the listed ones; after them each draw is `stepBeyond` later
than the draw before it (which is LAST_MS). -/
structure TimePort where
  draws      : List Nat
  stepBeyond : Nat
deriving DecidableEq, Repr, Inhabited

/-- The parameters the block was built with: OPEN in R6, whose defaults a configuration may override, so they are
kept as parameters here too. Log entry 4. DESIGN CHOICE, safe: opaque. -/
opaque Config.params : Params

/-- The contents of `cur` at construction, cell by cell: UNSPECIFIED, an independent draw each (10_state.md R40).
Log entry 1. DESIGN CHOICE, safe: opaque. -/
opaque Config.curAtReset : Nat → PackedColor

/-- The contents of `prev` at construction, independent of `cur` (R40). Log entry 1. DESIGN CHOICE, safe: opaque. -/
opaque Config.prevAtReset : Nat → PackedColor

/-- The value of ARG1, ARG2, ARG3 (by their number) at construction: UNSPECIFIED (R40). Log entry 2.
DESIGN CHOICE, safe: opaque. -/
opaque Config.argAtReset : Nat → Word

/-- The one `Now()` draw of construction (R32, R40). Log entry 3. DESIGN CHOICE, safe: opaque. -/
opaque Config.nowAtConstruction : Nat

/-- The oracle's draws after construction (R36). Log entry 5. DESIGN CHOICE, safe: opaque. -/
opaque Config.ioAtReset : IoOracle

/-- The time port's draws after construction (R32). Log entry 6. DESIGN CHOICE, safe: opaque. -/
opaque Config.clockAtReset : TimePort

/-- What the host holds on the payload port at construction (R30). Log entry 7. DESIGN CHOICE, safe: opaque. -/
opaque Config.payloadAtReset : PayloadPort

/-- What the host holds on the source port at construction (R31). Log entry 8. DESIGN CHOICE, safe: opaque. -/
opaque Config.sourceAtReset : SourcePort

end Sys2Proof
end

