-- ==== Sys2Proof/Syntax.lean ====
section
/-! DEFINITION. The 14 operations, one constructor per row of opcode_table.json (30_encoding.md R69). The operand
fields of the command word itself are arguments; every other operand is read from ARG1..3 (R67, R72). -/

namespace Sys2Proof

/-- One decoded command word. -/
inductive Instr where
  | reset
  | init
  | cvtPack
  | cvtUnpack
  | almostEq
  | fillRect
  | clear
  | blit
  | scan
  /-- `forceFull` is F = w[8]. -/
  | flush (forceFull : Bool)
  | setWindow
  /-- `cb` is CB = w[23:16]. -/
  | sendCmd (cb : Byte)
  | sendData
  | sendRawRegion
deriving DecidableEq, Repr

end Sys2Proof
end

