-- ==== Sys2Proof/WellFormed.lean ====
section
/-! DEFINITION. The well-formedness of a command word, check by check, from 30_encoding.md R73 and R74. An `Instr`
needs no check of its own: its only operand fields, F and CB, have the type of the field, so an ill-formed one
cannot be written. -/

namespace Sys2Proof

/-- OPC, w[7:0] (R66). -/
def opcField (w : Word) : Byte := w.extractLsb' 0 8
/-- F, w[8]. -/
def forceField (w : Word) : Bool := w.getLsbD 8
/-- RSV0, w[15:9]. -/
def rsv0Field (w : Word) : BitVec 7 := w.extractLsb' 9 7
/-- CB, w[23:16]. -/
def cbField (w : Word) : Byte := w.extractLsb' 16 8
/-- RSV1, w[31:24]. -/
def rsv1Field (w : Word) : Byte := w.extractLsb' 24 8

/-- The operation codes of R69. -/
def opcodes : List Byte :=
  [0x01, 0x02, 0x10, 0x11, 0x12, 0x20, 0x21, 0x22, 0x30, 0x31, 0x40, 0x41, 0x42, 0x43]

/-- R74: OPC is one of the 14 codes. -/
def opcodeKnown (w : Word) : Bool := opcodes.contains (opcField w)
/-- R73: the reserved fields are 0. -/
def reservedZero (w : Word) : Bool := rsv0Field w == 0 && rsv1Field w == 0
/-- R73: F is 0 unless OPC is FLUSH's. -/
def forceAllowed (w : Word) : Bool := !forceField w || opcField w == 0x31
/-- R73: CB is 0 unless OPC is SEND_CMD's. -/
def cbAllowed (w : Word) : Bool := cbField w == 0 || opcField w == 0x41

/-- A legal command word (R73, R74). -/
def legalWord (w : Word) : Bool := opcodeKnown w && reservedZero w && forceAllowed w && cbAllowed w

end Sys2Proof
end

