-- ==== Sys2Proof/Decode.lean ====
section
/-! DEFINITION. The opcode table (opcode_table.json), the decoder that searches it (30_encoding.md R79), and the
encoder written from the fields of the command word (R66, R69). -/

namespace Sys2Proof

/-- Why a command word is illegal. Both raise ILLEGAL_OP (60_exceptions.md R153). -/
inductive Reject where
  /-- OPC is none of the 14 codes (30_encoding.md R74). -/
  | illegalOpcode
  /-- The OPC is known, but a reserved or misused field is not 0 (R73). -/
  | reservedField
deriving DecidableEq, Repr

/-- One row of opcode_table.json: a word belongs to it when `w & mask = pattern`. -/
structure Row where
  mnemonic : String
  mask     : Word
  pattern  : Word
  build    : Word → Instr

/-- A row whose whole word is fixed. -/
def plainRow (mnemonic : String) (pattern : Word) (i : Instr) : Row :=
  { mnemonic := mnemonic, mask := 0xFFFFFFFF, pattern := pattern, build := fun _ => i }

/-- opcode_table.json, in its order. -/
def opcodeTable : List Row :=
  [ plainRow "RESET" 0x00000001 .reset,
    plainRow "INIT" 0x00000002 .init,
    plainRow "CVT_PACK" 0x00000010 .cvtPack,
    plainRow "CVT_UNPACK" 0x00000011 .cvtUnpack,
    plainRow "ALMOST_EQ" 0x00000012 .almostEq,
    plainRow "FILL_RECT" 0x00000020 .fillRect,
    plainRow "CLEAR" 0x00000021 .clear,
    plainRow "BLIT" 0x00000022 .blit,
    plainRow "SCAN" 0x00000030 .scan,
    { mnemonic := "FLUSH", mask := 0xFFFFFEFF, pattern := 0x00000031, build := fun w => .flush (forceField w) },
    plainRow "SET_WINDOW" 0x00000040 .setWindow,
    { mnemonic := "SEND_CMD", mask := 0xFF00FFFF, pattern := 0x00000041, build := fun w => .sendCmd (cbField w) },
    plainRow "SEND_DATA" 0x00000042 .sendData,
    plainRow "SEND_RAW_REGION" 0x00000043 .sendRawRegion ]

/-- `w` belongs to the row (R79). -/
def Row.covers (r : Row) (w : Word) : Bool := w &&& r.mask == r.pattern

/-- R79: the instruction of the row that covers the word; where none does, the name of what is wrong. -/
def decode (w : Word) : Except Reject Instr :=
  match opcodeTable.find? (fun r => r.covers w) with
  | some r => .ok (r.build w)
  | none => .error (if opcodeKnown w then .reservedField else .illegalOpcode)

/-- The format CW of R66: RSV1, CB, RSV0, F, OPC from the top bit down, the reserved fields 0. -/
def commandWord (opc : Byte) (force : Bool) (cb : Byte) : Word :=
  (0#8 ++ cb ++ 0#7 ++ BitVec.ofBool force ++ opc : BitVec (8 + 8 + 7 + 1 + 8))

/-- The operation code of R69. -/
def opcodeOf : Instr → Byte
  | .reset => 0x01
  | .init => 0x02
  | .cvtPack => 0x10
  | .cvtUnpack => 0x11
  | .almostEq => 0x12
  | .fillRect => 0x20
  | .clear => 0x21
  | .blit => 0x22
  | .scan => 0x30
  | .flush _ => 0x31
  | .setWindow => 0x40
  | .sendCmd _ => 0x41
  | .sendData => 0x42
  | .sendRawRegion => 0x43

/-- The command word of an instruction (R66, R69). -/
def encode : Instr → Word
  | .flush f => commandWord (opcodeOf (.flush f)) f 0
  | .sendCmd cb => commandWord (opcodeOf (.sendCmd cb)) false cb
  | .reset => commandWord (opcodeOf .reset) false 0
  | .init => commandWord (opcodeOf .init) false 0
  | .cvtPack => commandWord (opcodeOf .cvtPack) false 0
  | .cvtUnpack => commandWord (opcodeOf .cvtUnpack) false 0
  | .almostEq => commandWord (opcodeOf .almostEq) false 0
  | .fillRect => commandWord (opcodeOf .fillRect) false 0
  | .clear => commandWord (opcodeOf .clear) false 0
  | .blit => commandWord (opcodeOf .blit) false 0
  | .scan => commandWord (opcodeOf .scan) false 0
  | .setWindow => commandWord (opcodeOf .setWindow) false 0
  | .sendData => commandWord (opcodeOf .sendData) false 0
  | .sendRawRegion => commandWord (opcodeOf .sendRawRegion) false 0

/-- The command word whose low `nbits` bits are those of `w`, every other bit 0. The block takes a command as one
whole 32-bit register write, so bit numbers are the table's own and no byte order arises (20_memory.md R50). -/
def tableWord (nbits w : Nat) : Word := BitVec.ofNat 32 (w % 2 ^ nbits)

/-- The instruction the decoder reads from a word numbered as opcode_table.json numbers its bits. -/
def decodeTableWord (nbits w : Nat) : Option Instr :=
  match decode (tableWord nbits w) with
  | .ok i => some i
  | .error _ => none

end Sys2Proof
end

