-- ==== Sys2Proof/Machine/Grid.lean ====
section
/-! DEFINITION. A pixel grid (10_state.md R24): 240 x 280 cells of 16 bits, held row by row, every cell present.
Equal grids are equal data, and a grid cannot have another size (R26). -/

namespace Sys2Proof.Machine

/-- Map a list with the index of each entry, counting from `i`. -/
def mapFrom {α β : Type} (f : Nat → α → β) : Nat → List α → List β
  | _, [] => []
  | i, a :: as => f i a :: mapFrom f (i + 1) as

theorem length_mapFrom {α β : Type} (f : Nat → α → β) (l : List α) (i : Nat) :
    (mapFrom f i l).length = l.length := by
  induction l generalizing i with
  | nil => rfl
  | cons a as ih => simp [mapFrom, ih]

/-- Map a vector with the index of each entry. -/
def mapIndexed {α β : Type} {n : Nat} (f : Nat → α → β) (v : Vector α n) : Vector β n :=
  ⟨⟨mapFrom f 0 v.toList⟩, by simp [length_mapFrom]⟩

/-- One grid of NCELLS cells (R24): `rows[y][x]` is pixel (x, y), cell `x + y * 240`. -/
structure Grid where
  rows : Vector (Vector PackedColor WIDTH) HEIGHT
deriving DecidableEq, Repr

/-- The cell of pixel (x, y). -/
def Grid.cell (g : Grid) (x : Fin WIDTH) (y : Fin HEIGHT) : PackedColor := g.rows[y][x]

/-- The cell of index `i = x + y * 240` (R24). -/
def Grid.at (g : Grid) (i : Fin NCELLS) : PackedColor :=
  g.cell ⟨i.val % WIDTH, Nat.mod_lt _ (by decide)⟩ ⟨i.val / WIDTH, Nat.div_lt_of_lt_mul i.isLt⟩

/-- A grid with the same colour in every cell. -/
def Grid.const (c : PackedColor) : Grid := ⟨Vector.replicate HEIGHT (Vector.replicate WIDTH c)⟩

/-- Write every cell (x, y), from its own contents alone. Every drawing operation is one such update: the order of
its cell writes cannot be observed (R41, 41_framebuffer.md R97). -/
def Grid.update (f : Nat → Nat → PackedColor → PackedColor) (g : Grid) : Grid :=
  ⟨mapIndexed (fun y row => mapIndexed (fun x c => f x y c) row) g.rows⟩

/-- The grid whose cell `i` is `draw i`. -/
def Grid.ofDraws (draw : Nat → PackedColor) : Grid :=
  (Grid.const 0).update fun x y _ => draw (x + y * WIDTH)

end Sys2Proof.Machine
end

