-- ==== Sys2Proof/Machine/State.lean ====
section
/-! DEFINITION. The state of the block, its ports and its environment as plain data (10_state.md), the reasons a
step can stop, and the state after construction (R40, 70_reset_and_hazards.md R171). -/

namespace Sys2Proof.Machine

/-- STATUS.STATE, the protocol state (10_state.md R27). -/
inductive ProtoState where
  | uninitialized
  | resetting
  | configuring
  | ready
deriving DecidableEq, Repr

/-- The faults of 60_exceptions.md R152, kept in STATUS.FAULT_CODE. -/
inductive FaultCode where
  /-- 1: the command word is not in the opcode table (R153). -/
  | illegalOp
  /-- 2: the protocol state does not allow the operation (R158). -/
  | state
  /-- 3: a rectangle or window leaves the buffer, or a window is empty (R159). -/
  | bounds
  /-- 4: an operand register has not been written since construction (R155). -/
  | unwrittenArg
deriving DecidableEq, Repr

/-- STATUS.ERR (R19, R157). -/
inductive ErrCode where
  | ok
  | ioError
deriving DecidableEq, Repr

/-- The last level driven on a line (10_state.md R29). -/
inductive Level where
  | low
  | high
  | unknown
deriving DecidableEq, Repr

/-- The two lines the block drives (60_exceptions.md R167). -/
inductive Pin where
  /-- The mode line. -/
  | dc
  /-- The reset line, present exactly when HAS_RESET_PIN. -/
  | rst
deriving DecidableEq, Repr

/-- The events of the trace (00_scope.md R11). A level `true` is 1. -/
inductive Event where
  /-- `Pin(pin, level)`: a pin was driven. -/
  | pin (pin : Pin) (level : Bool)
  /-- `Bus(bytes)`: one bus transfer carried `bytes`. -/
  | bus (bytes : List Byte)
  /-- `Delay(ms)`: the block waited at least `ms` milliseconds. -/
  | delay (ms : Nat)
  /-- `PinFail(pin, level)`: the attempted write reported failure. -/
  | pinFail (pin : Pin) (level : Bool)
  /-- `BusFail(bytes)`: the attempted transfer reported failure. -/
  | busFail (bytes : List Byte)
deriving DecidableEq, Repr

/-- One operand register with its model-only flag `ARGk_written` (10_state.md R18). -/
structure ArgReg where
  value   : Word
  written : Bool
deriving DecidableEq, Repr

/-- One thing the host does (10_state.md R15). `read` and `write` are register accesses of `width` bits at a byte
offset (R16, 20_memory.md R50); the other two put new contents on a port between accesses (R30, R31, R42). -/
inductive HostEvent where
  | read (width offset : Nat)
  | write (width offset : Nat) (value : Word)
  | setPayload (port : PayloadPort)
  | setSource (port : SourcePort)
deriving DecidableEq, Repr

/-- The whole machine. -/
structure State where
  /-- The construction parameters (00_scope.md R6), read through CFG_MAXCHUNK and CFG_FLAGS (R22). -/
  cfg : Params
  /-- ARG1 (R18). -/
  arg1 : ArgReg
  /-- ARG2 (R18). -/
  arg2 : ArgReg
  /-- ARG3 (R18). -/
  arg3 : ArgReg
  /-- STATUS.STATE (R19, R27). -/
  proto : ProtoState
  /-- STATUS.FAULT (R19, R38). -/
  fault : Bool
  /-- STATUS.FAULT_CODE (R19); `none` is 0. -/
  faultCode : Option FaultCode
  /-- STATUS.ERR (R19, R38). -/
  err : ErrCode
  /-- RESULT (R20). -/
  result : Word
  /-- FPS_ELAPSED (R21). -/
  fpsElapsed : Word
  /-- The current grid (R24). -/
  cur : Grid
  /-- The previous-sent grid (R24). -/
  prev : Grid
  /-- LAST_MS (R28). -/
  lastMs : Nat
  /-- DC_LEVEL (R29). -/
  dcLevel : Level
  /-- RST_LEVEL (R29). -/
  rstLevel : Level
  /-- The trace, oldest event first (00_scope.md R11). -/
  trace : List Event
  /-- The payload port as the host holds it (R30). -/
  payload : PayloadPort
  /-- The source port as the host holds it (R31). -/
  source : SourcePort
  /-- The I/O oracle's future draws (R36). The model's own field: free values as data. -/
  io : IoOracle
  /-- The time port's future draws (R32). The model's own field: free values as data. -/
  clock : TimePort
  /-- What the host will do next, first event first (R37). The model's own field. -/
  host : List HostEvent
  /-- The index of the next host access (R37). -/
  position : Nat
  /-- The values the host's reads returned, oldest first. The model's own field, on the host's side. -/
  readLog : List Word
deriving DecidableEq, Repr

/-- The reasons a step could stop with a fault: none. A fault of the spec (60_exceptions.md R154) and an I/O error
(R157) are changes of STATUS after which the host goes on, so they are next states. Log entry 15; safe. -/
inductive Fault
deriving DecidableEq, Repr

/-- The reasons a step is refused. -/
inductive Refusal where
  /-- Raised by an arm of `exec` for an instruction without a meaning: no arm raises it. Safe. -/
  | notModelled (mnemonic : String)
  /-- Raised by a host access that is not a 32-bit access at a multiple-of-4 offset in 0x00..0xFF: "The model
  refuses it: the host has no such step" (10_state.md R23, 20_memory.md R50). Safe: nothing is claimed of it. -/
  | accessOutsideInterface (width offset : Nat)
deriving DecidableEq, Repr

/-- Construction, the block's only reset (R40, 70_reset_and_hazards.md R171): every piece of state at R40's value,
for every draw of the values R40 marks UNSPECIFIED and for every environment. It appends no event. -/
def State.constructed (p : Params) (curDraw prevDraw : Nat → PackedColor) (argDraw : Nat → Word) (now : Nat)
    (payload : PayloadPort) (source : SourcePort) (io : IoOracle) (clock : TimePort) : State :=
  { cfg := p
    arg1 := { value := argDraw 1, written := false }
    arg2 := { value := argDraw 2, written := false }
    arg3 := { value := argDraw 3, written := false }
    proto := .uninitialized
    fault := false
    faultCode := none
    err := .ok
    result := 0
    fpsElapsed := 0
    cur := Grid.ofDraws curDraw
    prev := Grid.ofDraws prevDraw
    lastMs := now
    dcLevel := .unknown
    rstLevel := .unknown
    trace := []
    payload := payload
    source := source
    io := io
    clock := clock
    host := []
    position := 0
    readLog := [] }

/-- The machine right after construction, with Config's free values for every value the spec leaves unspecified.
No host event is pending: the block runs nothing until the host's first OP write (R172). -/
def State.reset : State :=
  State.constructed Config.params Config.curAtReset Config.prevAtReset Config.argAtReset Config.nowAtConstruction
    Config.payloadAtReset Config.sourceAtReset Config.ioAtReset Config.clockAtReset

end Sys2Proof.Machine
end

