-- ==== Sys2Proof/Machine/Operands.lean ====
section
/-! DEFINITION. Bit fields and byte order (00_scope.md R10, 20_memory.md R48, R49), the operand layouts of
30_encoding.md R67, and what the ports give (10_state.md R30, R31). Every field is unsigned and zero-extended
(R68): coordinates and lengths become unbounded naturals here. -/

namespace Sys2Proof.Machine

/-- `v[15:8]` (R10). -/
def hi8 (v : BitVec 16) : Byte := v.extractLsb' 8 8
/-- `v[7:0]` (R10). -/
def lo8 (v : BitVec 16) : Byte := v.extractLsb' 0 8
/-- `swap16(v) = lo8(v) : hi8(v)` (R10). -/
def swap16 (v : BitVec 16) : BitVec 16 := lo8 v ++ hi8 v

/-- The two bytes of a window bound, high byte first (20_memory.md R49). -/
def boundBytes (v : Nat) : List Byte := [hi8 (BitVec.ofNat 16 v), lo8 (BitVec.ofNat 16 v)]

/-- The two wire bytes of a cell in stored form, low byte first (R48). -/
def cellBytes (c : PackedColor) : List Byte := [lo8 c, hi8 c]

/-- `ARG[15:0]`. -/
def loHalf (a : Word) : BitVec 16 := a.extractLsb' 0 16
/-- `ARG[31:16]`. -/
def hiHalf (a : Word) : BitVec 16 := a.extractLsb' 16 16

/-- The names of the operand registers (10_state.md R18). -/
inductive ArgName where
  | arg1
  | arg2
  | arg3
deriving DecidableEq, Repr

/-- The operand register of a name. -/
def State.arg (s : State) : ArgName → ArgReg
  | .arg1 => s.arg1
  | .arg2 => s.arg2
  | .arg3 => s.arg3

/-- Layout XY: X = ARG[15:0]. -/
def layoutX (a : Word) : Nat := (loHalf a).toNat
/-- Layout XY: Y = ARG[31:16]. -/
def layoutY (a : Word) : Nat := (hiHalf a).toNat
/-- Layout WH: W = ARG[15:0]. -/
def layoutW (a : Word) : Nat := (loHalf a).toNat
/-- Layout WH: H = ARG[31:16]. -/
def layoutH (a : Word) : Nat := (hiHalf a).toNat
/-- Layout SXY: SX = ARG[15:0]. -/
def layoutSX (a : Word) : Nat := (loHalf a).toNat
/-- Layout SXY: SY = ARG[31:16]. -/
def layoutSY (a : Word) : Nat := (hiHalf a).toNat
/-- Layout C: COLOR = ARG[15:0], stored form. -/
def layoutColor (a : Word) : PackedColor := loHalf a
/-- Layout RGB: R = ARG[7:0], G = ARG[15:8], B = ARG[23:16]. -/
def layoutRgb (a : Word) : Rgb := { r := a.extractLsb' 0 8, g := a.extractLsb' 8 8, b := a.extractLsb' 16 8 }
/-- Layout AB: A = ARG[15:0]. -/
def layoutA (a : Word) : PackedColor := loHalf a
/-- Layout AB: B = ARG[31:16]. -/
def layoutB (a : Word) : PackedColor := hiHalf a
/-- Layout U32: V = ARG[31:0]. -/
def layoutU32 (a : Word) : Nat := a.toNat

/-- The operand registers an operation reads, in order (R69, R72). -/
def argsRead : Instr → List ArgName
  | .reset => []
  | .init => []
  | .cvtPack => [.arg1]
  | .cvtUnpack => [.arg1]
  | .almostEq => [.arg1, .arg2]
  | .fillRect => [.arg1, .arg2, .arg3]
  | .clear => [.arg3]
  | .blit => [.arg1, .arg2, .arg3]
  | .scan => []
  | .flush _ => []
  | .setWindow => [.arg1, .arg2]
  | .sendCmd _ => [.arg1]
  | .sendData => [.arg1]
  | .sendRawRegion => [.arg1, .arg2]

/-- `PayloadByte(k)` (10_state.md R30). -/
def payloadByte (p : PayloadPort) (k : Nat) : Byte := p.bytes.getD k p.beyond

/-- `[PayloadByte(0), ..., PayloadByte(n - 1)]`: each index below `n` once, in increasing order (R30, 20_memory.md
R51). -/
def payloadBytes (p : PayloadPort) (n : Nat) : List Byte :=
  p.bytes.take n ++ List.replicate (n - p.bytes.length) p.beyond

/-- `SrcPixel(sx, sy)` (R31), asked only for `sx < SRC_W` and `sy < SRC_H`. -/
def srcPixel (p : SourcePort) (sx sy : Nat) : Rgb := (p.pixels.getD sy []).getD sx p.beyond

end Sys2Proof.Machine
end

