-- ==== Sys2Proof/Machine/Flags.lean ====
section
/-! DEFINITION. STATUS: the codes of its fields, the word the host reads (10_state.md R19), and the two changes its
flags undergo (R38): ERR cleared by every accepted operation, ERR set by an I/O error. -/

namespace Sys2Proof.Machine

/-- STATUS.STATE (R27). -/
def ProtoState.code : ProtoState → BitVec 2
  | .uninitialized => 0
  | .resetting => 1
  | .configuring => 2
  | .ready => 3

/-- STATUS.FAULT_CODE (60_exceptions.md R152). -/
def FaultCode.code : FaultCode → BitVec 4
  | .illegalOp => 1
  | .state => 2
  | .bounds => 3
  | .unwrittenArg => 4

/-- FAULT_CODE of the whole field: 0 where no fault was raised. -/
def faultField : Option FaultCode → BitVec 4
  | none => 0
  | some c => c.code

/-- STATUS.ERR (R19). -/
def ErrCode.code : ErrCode → BitVec 4
  | .ok => 0
  | .ioError => 1

/-- STATUS as the host reads it (R19): reserved bits 0. -/
def statusWord (s : State) : Word :=
  (0#12 ++ faultField s.faultCode ++ 0#4 ++ s.err.code ++ 0#5 ++ BitVec.ofBool s.fault ++ s.proto.code :
    BitVec (12 + 4 + 4 + 4 + 5 + 1 + 2))

/-- `STATUS.ERR <- 0` (30_encoding.md R80). -/
def State.clearErr (s : State) : State := { s with err := .ok }

/-- `STATUS.ERR <- 1` (60_exceptions.md R157). -/
def State.setIoError (s : State) : State := { s with err := .ioError }

end Sys2Proof.Machine
end

