-- ==== Sys2Proof/Machine/Ops.lean ====
section
/-! DEFINITION. The shared operations: the named writes of State, raising a fault (60_exceptions.md R154), the
common dispatch (30_encoding.md R80), the primitives of 00_scope.md R9 with their I/O oracle, and the framing and
chunking of the bus (44_transmit.md R121, R122, R124). -/

namespace Sys2Proof.Machine

/-! ### Writes of State -/

/-- `RESULT <- v` (10_state.md R20). -/
def State.setResult (v : Word) (s : State) : State := { s with result := v }

/-- `STATE <- p` (R27). -/
def State.setProto (p : ProtoState) (s : State) : State := { s with proto := p }

/-- Replace the current grid (R25). -/
def State.setCur (g : Grid) (s : State) : State := { s with cur := g }

/-- `CopyCurToPrev()` (45_protocol.md R143). -/
def State.copyCurToPrev (s : State) : State := { s with prev := s.cur }

/-- Append one event (00_scope.md R11). -/
def State.emit (e : Event) (s : State) : State := { s with trace := s.trace ++ [e] }

/-- Record the level of a line (10_state.md R33). -/
def State.setLevel (pin : Pin) (l : Level) (s : State) : State :=
  match pin with
  | .dc => { s with dcLevel := l }
  | .rst => { s with rstLevel := l }

/-- A host write of ARGk (R18). -/
def State.setArg (k : ArgName) (v : Word) (s : State) : State :=
  match k with
  | .arg1 => { s with arg1 := { value := v, written := true } }
  | .arg2 => { s with arg2 := { value := v, written := true } }
  | .arg3 => { s with arg3 := { value := v, written := true } }

/-! ### Faults and the common dispatch -/

/-- `raise Fault(code)` (60_exceptions.md R154): the first code is kept, FAULT is set, nothing else happens. It
saves nothing and goes nowhere (R162). -/
def raiseFault (code : FaultCode) (s : State) : State :=
  { s with faultCode := if s.faultCode.isNone then some code else s.faultCode, fault := true }

/-- The common dispatch (30_encoding.md R80) of an operation that reads the operand registers `args`: a halted block
ignores the write (60_exceptions.md R156); ERR is cleared; an unwritten operand faults (R155); then the
operation's own rule runs. -/
def accept (args : List ArgName) (rule : State → State) (s : State) : State :=
  if s.fault then s
  else if args.all (fun k => (s.arg k).written) then rule s.clearErr
  else raiseFault .unwrittenArg s.clearErr

/-! ### Primitives and the I/O oracle -/

/-- One primitive an operation asks for (00_scope.md R9): `PinWrite`, `BusWrite`, `Delay`. -/
inductive Action where
  | pin (pin : Pin) (level : Bool)
  | bus (bytes : List Byte)
  | delay (ms : Nat)
deriving DecidableEq, Repr

/-- What a run of primitives comes to: done, or ended by `raise IoError` at the state given. -/
inductive Io where
  | done (s : State)
  | failed (s : State)
deriving DecidableEq, Repr

/-- The oracle's next draw (10_state.md R36). -/
def oracleNext (o : IoOracle) : Bool :=
  match o.draws with
  | b :: _ => b
  | [] => o.beyond

/-- The oracle after a draw. -/
def oracleRest (o : IoOracle) : IoOracle := { o with draws := o.draws.tail }

/-- Consume one oracle draw. -/
def State.drawIo (s : State) : State := { s with io := oracleRest s.io }

/-- A level driven on a line. -/
def Level.ofBool : Bool → Level
  | false => .low
  | true => .high

/-- `PinWrite(pin, level)` (R33). -/
def pinWrite (pin : Pin) (level : Bool) (s : State) : Io :=
  if oracleNext s.io then .done ((s.drawIo.setLevel pin (Level.ofBool level)).emit (.pin pin level))
  else .failed ((s.drawIo.setLevel pin .unknown).emit (.pinFail pin level))

/-- `BusWrite(bytes)` (R34). -/
def busWrite (bytes : List Byte) (s : State) : Io :=
  if oracleNext s.io then .done (s.drawIo.emit (.bus bytes))
  else .failed (s.drawIo.emit (.busFail bytes))

/-- One primitive. `Delay` never fails (R35). -/
def performOne : Action → State → Io
  | .pin p l, s => pinWrite p l s
  | .bus bytes, s => busWrite bytes s
  | .delay ms, s => .done (s.emit (.delay ms))

/-- Primitives in order; the first failure ends them (60_exceptions.md R157). -/
def perform : List Action → State → Io
  | [], s => .done s
  | a :: as, s =>
    match performOne a s with
    | .done s' => perform as s'
    | .failed s' => .failed s'

/-- End an operation: what follows its last primitive, or `raise IoError` (R157), which sets ERR and keeps what was
done before. -/
def Io.conclude (after : State → State) : Io → State
  | .done s => after s
  | .failed s => s.setIoError

/-! ### Chunking and framing -/

/-- Consecutive slices of `m` bytes, the last one possibly shorter; `fuel` bounds their number. -/
def slicesFuel (m : Nat) : Nat → List Byte → List (List Byte)
  | 0, _ => []
  | _ + 1, [] => []
  | fuel + 1, b :: bs => (b :: bs).take m :: slicesFuel m fuel ((b :: bs).drop m)

/-- The greedy slices of R121 (44_transmit.md): every slice but the last has `m` bytes, no bytes give no slice. -/
def slices (m : Nat) (bytes : List Byte) : List (List Byte) := slicesFuel m bytes.length bytes

/-- `ChunkedWrite(bytes)` (R121). -/
def chunkedWrite (p : Params) (bytes : List Byte) : List Action := (slices p.maxChunk bytes).map .bus

/-- `SendCommand(c, params)` (R122). -/
def sendCommand (p : Params) (c : Byte) (params : List Byte) : List Action :=
  [.pin .dc p.dcCmdLevel, .bus [c], .pin .dc (!p.dcCmdLevel)] ++ chunkedWrite p params

/-- `SendData(bytes)` (R124). -/
def sendDataFramed (p : Params) (bytes : List Byte) : List Action :=
  .pin .dc (!p.dcCmdLevel) :: chunkedWrite p bytes

/-! ### The time port -/

/-- `Now()` (10_state.md R32): the time port's next draw. -/
def State.now (s : State) : Nat :=
  match s.clock.draws with
  | t :: _ => t
  | [] => s.lastMs + s.clock.stepBeyond

/-- `UpdateFps()` (45_protocol.md R144): natural subtraction saturates at 0 as `-sat` does. -/
def State.updateFps (s : State) : State :=
  { s with
    fpsElapsed := BitVec.ofNat 32 (min 0xFFFFFFFF (max FPS_FLOOR_MS (s.now - s.lastMs)))
    lastMs := s.now
    clock := { s.clock with draws := s.clock.draws.tail } }

end Sys2Proof.Machine
end

