-- ==== Sys2Proof/Machine/PackedColor.lean ====
section
/-! DEFINITION. PackedColor (40_color.md): `FromChannels`, `Channels`, `AlmostEq`, and the operations CVT_PACK,
CVT_UNPACK and ALMOST_EQ. -/

namespace Sys2Proof.Machine

/-- `FromChannels(r, g, b)` (R86, R87): the top bits of each channel, red in N[15:11], then swapped. -/
def fromChannels (c : Rgb) : PackedColor :=
  swap16 (c.r.extractLsb' 3 5 ++ c.g.extractLsb' 2 6 ++ c.b.extractLsb' 3 5 : BitVec (5 + 6 + 5))

/-- `Expand5(q)` (R88). -/
def expand5 (q : BitVec 5) : Byte := if q = 0 then 0 else (q ++ 0b111#3 : BitVec (5 + 3))

/-- `Expand6(q)` (R88). -/
def expand6 (q : BitVec 6) : Byte := if q = 0 then 0 else (q ++ 0b11#2 : BitVec (6 + 2))

/-- `Channels(S)` (R88). -/
def channels (c : PackedColor) : Rgb :=
  { r := expand5 ((swap16 c).extractLsb' 11 5)
    g := expand6 ((swap16 c).extractLsb' 5 6)
    b := expand5 ((swap16 c).extractLsb' 0 5) }

/-- `|a - b|` of two channel values, on naturals (R90). -/
def channelDistance (a b : Byte) : Nat := (a.toNat - b.toNat) + (b.toNat - a.toNat)

/-- `AlmostEq(a, b, t)` (R90): the thresholds are `t << 3` and `t << 2`, on unbounded naturals. -/
def almostEq (a b : PackedColor) (t : Nat) : Bool :=
  a == b ||
    (channelDistance (channels a).r (channels b).r ≤ t * 8 &&
      channelDistance (channels a).g (channels b).g ≤ t * 4 &&
      channelDistance (channels a).b (channels b).b ≤ t * 8)

/-- RESULT of CVT_UNPACK (30_encoding.md R70): `0x00 : b : g : r`. -/
def rgbWord (c : Rgb) : Word := (0#8 ++ c.b ++ c.g ++ c.r : BitVec (8 + 8 + 8 + 8))

/-- The rule of CVT_PACK (R86). -/
def cvtPackRule (s : State) : State :=
  s.setResult ((fromChannels (layoutRgb s.arg1.value)).setWidth 32)

/-- The rule of CVT_UNPACK (R88). -/
def cvtUnpackRule (s : State) : State :=
  s.setResult (rgbWord (channels (layoutColor s.arg1.value)))

/-- The rule of ALMOST_EQ (R90). -/
def almostEqRule (s : State) : State :=
  s.setResult (if almostEq (layoutA s.arg1.value) (layoutB s.arg1.value) (layoutU32 s.arg2.value) then 1 else 0)

/-- CVT_PACK (R86). -/
def execCvtPack (s : State) : Host.Outcome State Fault Refusal := .next (accept (argsRead .cvtPack) cvtPackRule s)

/-- CVT_UNPACK (R88). -/
def execCvtUnpack (s : State) : Host.Outcome State Fault Refusal :=
  .next (accept (argsRead .cvtUnpack) cvtUnpackRule s)

/-- ALMOST_EQ (R90). -/
def execAlmostEq (s : State) : Host.Outcome State Fault Refusal := .next (accept (argsRead .almostEq) almostEqRule s)

end Sys2Proof.Machine
end

