-- ==== Sys2Proof/Machine/FrameBuffer.lean ====
section
/-! DEFINITION. FrameBuffer (41_framebuffer.md): FILL_RECT, CLEAR, BLIT and the serialisation RawBytes. A drawing
operation is accepted in every protocol state, emits no event and cannot raise IoError. -/

namespace Sys2Proof.Machine

/-- `RectOK(X, Y, W, H)` (R96), on unbounded naturals. -/
def rectOk (x y w h : Nat) : Bool := x + w ≤ WIDTH && y + h ≤ HEIGHT

/-- Pixel (px, py) lies in the rectangle of origin (x, y) and size w x h. -/
def inRect (x y w h px py : Nat) : Bool := x ≤ px && px < x + w && y ≤ py && py < y + h

/-- The cells FILL_RECT leaves (R96). -/
def fillGrid (x y w h : Nat) (color : PackedColor) (g : Grid) : Grid :=
  g.update fun px py c => if inRect x y w h px py then color else c

/-- The cells BLIT leaves (R100): a cell of the destination takes the source pixel at its own offset from the
origins, and keeps its contents where the source has no such pixel. -/
def blitGrid (x y w h sx sy : Nat) (src : SourcePort) (g : Grid) : Grid :=
  g.update fun px py c =>
    if inRect x y w h px py && sx + (px - x) < src.width && sy + (py - y) < src.height then
      fromChannels (srcPixel src (sx + (px - x)) (sy + (py - y)))
    else c

/-- The rule of FILL_RECT (R96). -/
def fillRectRule (s : State) : State :=
  if rectOk (layoutX s.arg1.value) (layoutY s.arg1.value) (layoutW s.arg2.value) (layoutH s.arg2.value) then
    s.setCur (fillGrid (layoutX s.arg1.value) (layoutY s.arg1.value) (layoutW s.arg2.value) (layoutH s.arg2.value)
      (layoutColor s.arg3.value) s.cur)
  else raiseFault .bounds s

/-- The rule of CLEAR (R98): every cell takes the colour. -/
def clearRule (s : State) : State := s.setCur (Grid.const (layoutColor s.arg3.value))

/-- The rule of BLIT (R100, R101). -/
def blitRule (s : State) : State :=
  if rectOk (layoutX s.arg1.value) (layoutY s.arg1.value) (layoutW s.arg2.value) (layoutH s.arg2.value) then
    s.setCur (blitGrid (layoutX s.arg1.value) (layoutY s.arg1.value) (layoutW s.arg2.value) (layoutH s.arg2.value)
      (layoutSX s.arg3.value) (layoutSY s.arg3.value) s.source s.cur)
  else raiseFault .bounds s

/-- FILL_RECT (R96). -/
def execFillRect (s : State) : Host.Outcome State Fault Refusal := .next (accept (argsRead .fillRect) fillRectRule s)

/-- CLEAR (R98). -/
def execClear (s : State) : Host.Outcome State Fault Refusal := .next (accept (argsRead .clear) clearRule s)

/-- BLIT (R100). -/
def execBlit (s : State) : Host.Outcome State Fault Refusal := .next (accept (argsRead .blit) blitRule s)

/-- The wire bytes of one row, left to right (R102). -/
def rowBytes (row : Vector PackedColor WIDTH) : List Byte := row.toList.flatMap cellBytes

/-- `RawBytes(top, bottom)` (R102): the cells `240 * top .. 240 * (bottom + 1) - 1` in index order, that is the rows
top to bottom, each left to right, every cell low byte first. -/
def rawBytes (g : Grid) (top bottom : Nat) : List Byte :=
  ((g.rows.toList.drop top).take (bottom + 1 - top)).flatMap rowBytes

end Sys2Proof.Machine
end

