-- ==== Sys2Proof/Machine/Scanner.lean ====
section
/-! DEFINITION. DirtyRegionScanner (42_scanner.md): the dirty-region function and the operation SCAN. -/

namespace Sys2Proof.Machine

/-- A row is dirty when some cell of it is not almost equal to the same cell of the other row (R106). -/
def rowsDiffer (a b : Vector PackedColor WIDTH) : Bool :=
  (a.toList.zip b.toList).any fun p => !almostEq p.1 p.2 SCAN_TOL

/-- `RowDirty(r)` (R106). -/
def rowDirty (cur prev : Grid) (r : Fin HEIGHT) : Bool := rowsDiffer cur.rows[r] prev.rows[r]

/-- The rows from the top down. -/
def rowOrder : List (Fin HEIGHT) := List.finRange HEIGHT

/-- `Scan()` (R106): the first dirty row from the top and the first from the bottom; `none` is Empty. -/
def scan (cur prev : Grid) : Option (Fin HEIGHT × Fin HEIGHT) :=
  match rowOrder.find? (rowDirty cur prev) with
  | none => none
  | some top =>
    match rowOrder.reverse.find? (rowDirty cur prev) with
    | none => none
    | some bottom => some (top, bottom)

/-- RESULT of SCAN (30_encoding.md R70): top in [15:0], bottom in [31:16]; 0xFFFFFFFF for Empty. -/
def regionWord : Option (Fin HEIGHT × Fin HEIGHT) → Word
  | none => 0xFFFFFFFF
  | some (top, bottom) => (BitVec.ofNat 16 bottom ++ BitVec.ofNat 16 top : BitVec (16 + 16))

/-- The rule of SCAN (R107). -/
def scanRule (s : State) : State := s.setResult (regionWord (scan s.cur s.prev))

/-- SCAN (R107). -/
def execScan (s : State) : Host.Outcome State Fault Refusal := .next (accept (argsRead .scan) scanRule s)

end Sys2Proof.Machine
end

