-- ==== Sys2Proof/Machine/Window.lean ====
section
/-! DEFINITION. WindowAddresser (43_window.md): the window check, the emission sequence and SET_WINDOW. -/

namespace Sys2Proof.Machine

/-- `WindowOK(X0, Y0, X1, Y1)` (R114), on unbounded naturals. -/
def windowOk (x0 y0 x1 y1 : Nat) : Bool := x0 < x1 && x1 ≤ WIDTH && y0 < y1 && y1 ≤ HEIGHT

/-- `EmitWindow(x0, y0, x1, y1)` (R115): exclusive ends in, inclusive bounds out, rows 20 further down. -/
def emitWindow (p : Params) (x0 y0 x1 y1 : Nat) : List Action :=
  sendCommand p p.cmdCaset (boundBytes x0 ++ boundBytes (x1 - 1)) ++
    sendCommand p p.cmdRaset (boundBytes (y0 + Y_OFFSET) ++ boundBytes (y1 + Y_OFFSET - 1)) ++
    sendCommand p p.cmdRamwr []

/-- The rule of SET_WINDOW (R113): STATE first, then BOUNDS, then the emission. -/
def setWindowRule (s : State) : State :=
  if s.proto ≠ .ready then raiseFault .state s
  else if windowOk (layoutX s.arg1.value) (layoutY s.arg1.value) (layoutX s.arg2.value) (layoutY s.arg2.value) then
    (perform (emitWindow s.cfg (layoutX s.arg1.value) (layoutY s.arg1.value) (layoutX s.arg2.value)
      (layoutY s.arg2.value)) s).conclude id
  else raiseFault .bounds s

/-- SET_WINDOW (R113). -/
def execSetWindow (s : State) : Host.Outcome State Fault Refusal :=
  .next (accept (argsRead .setWindow) setWindowRule s)

end Sys2Proof.Machine
end

