-- ==== Sys2Proof/Machine/Transmit.lean ====
section
/-! DEFINITION. ChunkedTransmitter (44_transmit.md): SEND_CMD, SEND_DATA and SEND_RAW_REGION. -/

namespace Sys2Proof.Machine

/-- The rule of SEND_CMD (R123): accepted in every protocol state. -/
def sendCmdRule (cb : Byte) (s : State) : State :=
  (perform (sendCommand s.cfg cb (payloadBytes s.payload (layoutU32 s.arg1.value))) s).conclude id

/-- The rule of SEND_DATA (R125): accepted in every protocol state. -/
def sendDataRule (s : State) : State :=
  (perform (sendDataFramed s.cfg (payloadBytes s.payload (layoutU32 s.arg1.value))) s).conclude id

/-- The primitives of SEND_RAW_REGION (R127): the window, then `2 * W * H` payload bytes as they are. -/
def rawRegionActions (p : Params) (port : PayloadPort) (x y w h : Nat) : List Action :=
  emitWindow p x y (x + w) (y + h) ++ sendDataFramed p (payloadBytes port (2 * w * h))

/-- The rule of SEND_RAW_REGION (R127, R128). -/
def sendRawRegionRule (s : State) : State :=
  if s.proto ≠ .ready then raiseFault .state s
  else if windowOk (layoutX s.arg1.value) (layoutY s.arg1.value) (layoutX s.arg1.value + layoutW s.arg2.value)
      (layoutY s.arg1.value + layoutH s.arg2.value) then
    (perform (rawRegionActions s.cfg s.payload (layoutX s.arg1.value) (layoutY s.arg1.value) (layoutW s.arg2.value)
      (layoutH s.arg2.value)) s).conclude id
  else raiseFault .bounds s

/-- SEND_CMD (R123). -/
def execSendCmd (cb : Byte) (s : State) : Host.Outcome State Fault Refusal :=
  .next (accept (argsRead (.sendCmd cb)) (sendCmdRule cb) s)

/-- SEND_DATA (R125). -/
def execSendData (s : State) : Host.Outcome State Fault Refusal := .next (accept (argsRead .sendData) sendDataRule s)

/-- SEND_RAW_REGION (R127). -/
def execSendRawRegion (s : State) : Host.Outcome State Fault Refusal :=
  .next (accept (argsRead .sendRawRegion) sendRawRegionRule s)

end Sys2Proof.Machine
end

