-- ==== Sys2Proof/Machine/Protocol.lean ====
section
/-! DEFINITION. DisplayProtocol (45_protocol.md): RESET, INIT and FLUSH. -/

namespace Sys2Proof.Machine

/-- The pin sequence of RESET (R133), nothing without a reset line (R134). -/
def resetActions (p : Params) : List Action :=
  if p.hasResetPin then
    [.pin .rst true, .delay p.tRst1, .pin .rst false, .delay p.tRst2, .pin .rst true, .delay p.tRst3]
  else []

/-- The rule of RESET (R133): STATE changes before any pin event, with or without a reset line. -/
def resetRule (s : State) : State :=
  (perform (resetActions s.cfg) (s.setProto .resetting)).conclude id

/-- RESET (R133). -/
def execReset (s : State) : Host.Outcome State Fault Refusal := .next (accept (argsRead .reset) resetRule s)

/-- One entry of INIT_SEQ (R136): its command, then its delay if there is one. -/
def initEntryActions (p : Params) (e : InitEntry) : List Action :=
  sendCommand p e.cmd e.params ++ (if e.delayMs > 0 then [.delay e.delayMs] else [])

/-- INIT_SEQ in list order (R136). -/
def initActions (p : Params) : List Action := p.initSeq.flatMap (initEntryActions p)

/-- The rule of INIT (R136): after an I/O error STATE stays CONFIGURING (R138). -/
def initRule (s : State) : State :=
  if s.proto ≠ .resetting then raiseFault .state s
  else (perform (initActions s.cfg) (s.setProto .configuring)).conclude (fun s' => s'.setProto .ready)

/-- INIT (R136). -/
def execInit (s : State) : Host.Outcome State Fault Refusal := .next (accept (argsRead .init) initRule s)

/-- The region FLUSH sends (R141): the whole frame when forced, else what the scan finds. -/
def flushRegion (forceFull : Bool) (s : State) : Option (Fin HEIGHT × Fin HEIGHT) :=
  if forceFull then some (0, Fin.last 279) else scan s.cur s.prev

/-- The primitives of FLUSH for a region (R141): its window, then its rows; nothing for Empty. -/
def flushActions (p : Params) (cur : Grid) : Option (Fin HEIGHT × Fin HEIGHT) → List Action
  | none => []
  | some (top, bottom) =>
    emitWindow p 0 top WIDTH (bottom + 1) ++ sendDataFramed p (rawBytes cur top bottom)

/-- The pixel bytes FLUSH reports (R141, 30_encoding.md R70). -/
def flushSent : Option (Fin HEIGHT × Fin HEIGHT) → Nat
  | none => 0
  | some (top, bottom) => (bottom - top + 1) * ROW_BYTES

/-- The rule of FLUSH (R141, R143, R144): after a failure none of the copy, the FPS sample and RESULT happens
(R145). -/
def flushRule (forceFull : Bool) (s : State) : State :=
  if s.proto ≠ .ready then raiseFault .state s
  else
    (perform (flushActions s.cfg s.cur (flushRegion forceFull s)) s).conclude fun s' =>
      s'.copyCurToPrev.updateFps.setResult (BitVec.ofNat 32 (flushSent (flushRegion forceFull s)))

/-- FLUSH (R141). -/
def execFlush (forceFull : Bool) (s : State) : Host.Outcome State Fault Refusal :=
  .next (accept (argsRead (.flush forceFull)) (flushRule forceFull) s)

end Sys2Proof.Machine
end

