-- ==== Sys2Proof/Machine/Dispatch.lean ====
section
/-! DEFINITION. One arm per operation, each one call of its meaning. -/

namespace Sys2Proof.Machine

def exec (i : Instr) (s : State) : Host.Outcome State Fault Refusal :=
  match i with
  | .reset => Sys2Proof.Machine.execReset s
  | .init => Sys2Proof.Machine.execInit s
  | .cvtPack => Sys2Proof.Machine.execCvtPack s
  | .cvtUnpack => Sys2Proof.Machine.execCvtUnpack s
  | .almostEq => Sys2Proof.Machine.execAlmostEq s
  | .fillRect => Sys2Proof.Machine.execFillRect s
  | .clear => Sys2Proof.Machine.execClear s
  | .blit => Sys2Proof.Machine.execBlit s
  | .scan => Sys2Proof.Machine.execScan s
  | .flush forceFull => Sys2Proof.Machine.execFlush forceFull s
  | .setWindow => Sys2Proof.Machine.execSetWindow s
  | .sendCmd cb => Sys2Proof.Machine.execSendCmd cb s
  | .sendData => Sys2Proof.Machine.execSendData s
  | .sendRawRegion => Sys2Proof.Machine.execSendRawRegion s

end Sys2Proof.Machine
end

