-- ==== Sys2Proof/Machine/HostInterface.lean ====
section
/-! DEFINITION. The host register block (10_state.md R16 to R23): what a read returns, what a write does, and how a
command word written to OP is dispatched (30_encoding.md R80). -/

namespace Sys2Proof.Machine

/-- The host registers of R16. -/
inductive Register where
  | op
  | arg (k : ArgName)
  | status
  | result
  | fpsElapsed
  | cfgMaxChunk
  | cfgFlags
  /-- The offsets 0x24 .. 0xFF (R23). -/
  | reserved
deriving DecidableEq, Repr

/-- The register at a byte offset (R16). -/
def registerAt (offset : Nat) : Register :=
  if offset = 0x00 then .op
  else if offset = 0x04 then .arg .arg1
  else if offset = 0x08 then .arg .arg2
  else if offset = 0x0C then .arg .arg3
  else if offset = 0x10 then .status
  else if offset = 0x14 then .result
  else if offset = 0x18 then .fpsElapsed
  else if offset = 0x1C then .cfgMaxChunk
  else if offset = 0x20 then .cfgFlags
  else .reserved

/-- A 32-bit access at a multiple-of-4 offset in 0x00..0xFF: the only accesses of the interface (R23, 20_memory.md
R50). -/
def accessOk (width offset : Nat) : Bool := width == 32 && offset % 4 == 0 && offset ≤ 0xFF

/-- CFG_MAXCHUNK (R22). -/
def maxChunkWord (p : Params) : Word := BitVec.ofNat 32 (min 0xFFFFFFFF p.maxChunk)

/-- CFG_FLAGS (R22). -/
def flagsWord (p : Params) : Word := (0#31 ++ BitVec.ofBool p.hasResetPin : BitVec (31 + 1))

/-- What a read returns (R16). -/
def readRegister (r : Register) (s : State) : Word :=
  match r with
  | .op => 0
  | .arg k => (s.arg k).value
  | .status => statusWord s
  | .result => s.result
  | .fpsElapsed => s.fpsElapsed
  | .cfgMaxChunk => maxChunkWord s.cfg
  | .cfgFlags => flagsWord s.cfg
  | .reserved => 0

/-- The host takes its next event from its sequence. -/
def State.takeEvent (rest : List HostEvent) (s : State) : State := { s with host := rest }

/-- One more access was issued (R37). -/
def State.countAccess (s : State) : State := { s with position := s.position + 1 }

/-- The host keeps the value a read returned. -/
def State.logRead (v : Word) (s : State) : State := { s with readLog := s.readLog ++ [v] }

/-- The host puts new contents on the payload port (R30). -/
def State.setPayload (p : PayloadPort) (s : State) : State := { s with payload := p }

/-- The host puts new contents on the source port (R31). -/
def State.setSource (p : SourcePort) (s : State) : State := { s with source := p }

/-- `OP <- w` (30_encoding.md R80): a legal word runs its operation; an illegal one raises ILLEGAL_OP unless the
block is halted. -/
def runWord (w : Word) (s : State) : Host.Outcome State Fault Refusal :=
  match decode w with
  | .ok i => exec i s
  | .error _ => .next (accept [] (raiseFault .illegalOp) s)

/-- A host write of a register (R16 to R18): only OP and the ARGs take one. -/
def writeRegister (r : Register) (v : Word) (s : State) : Host.Outcome State Fault Refusal :=
  match r with
  | .op => runWord v s
  | .arg k => .next (s.setArg k v)
  | .status => .next s
  | .result => .next s
  | .fpsElapsed => .next s
  | .cfgMaxChunk => .next s
  | .cfgFlags => .next s
  | .reserved => .next s

/-- One host event on the state from which it has been taken. -/
def serve (ev : HostEvent) (s : State) : Host.Outcome State Fault Refusal :=
  match ev with
  | .read width offset =>
    if accessOk width offset then .next (s.countAccess.logRead (readRegister (registerAt offset) s))
    else .refused (.accessOutsideInterface width offset)
  | .write width offset v =>
    if accessOk width offset then writeRegister (registerAt offset) v s.countAccess
    else .refused (.accessOutsideInterface width offset)
  | .setPayload port => .next (s.setPayload port)
  | .setSource port => .next (s.setSource port)

/-- The state after the host's next event; with no event pending the block waits and nothing changes (R37,
70_reset_and_hazards.md R172). -/
def serveNext (s : State) : Host.Outcome State Fault Refusal :=
  match s.host with
  | [] => .next s
  | ev :: rest => serve ev (s.takeEvent rest)

/-- The host's next access becomes a write of the command word to OP. -/
def pushCommand (w : Word) (s : State) : State := { s with host := .write 32 0x00 w :: s.host }

end Sys2Proof.Machine
end

