-- ==== Sys2Proof/Machine/Step.lean ====
section
/-! DEFINITION. One step of the machine, and where it takes its next instruction from. The block fetches nothing
(10_state.md R37): its program is the host's sequence of events, and one step serves one of them. -/

namespace Sys2Proof.Machine

/-- One host event, with the whole operation it starts (10_state.md R17). -/
def step (s : State) : Host.Outcome State Fault Refusal := serveNext s

/-- The state whose very next step is the OP write of the instruction with bits `w`. -/
def State.withFetchWord (s : State) (nbits w : Nat) : State := pushCommand (tableWord nbits w) s

end Sys2Proof.Machine
end

