-- ==== Sys2Proof/Machine/Assembler.lean ====
section
/-! DEFINITION. The assembler of 30_encoding.md R77 and the pseudo-instructions of R78: a line is a sequence of host
events, first the ARG writes of the registers the operation reads, then the OP write. -/

namespace Sys2Proof.Machine

/-- One line of assembly, its operands at the width of the fields they fill (R67). -/
inductive AsmLine where
  | reset
  | init
  | cvtPack (r g b : Byte)
  | cvtUnpack (s : PackedColor)
  | almostEq (a b : PackedColor) (t : Word)
  | fillRect (x y w h : BitVec 16) (color : PackedColor)
  | clear (color : PackedColor)
  | blit (x y w h sx sy : BitVec 16)
  | scan
  | flush
  /-- `FLUSH.FULL`: the FLUSH encoding with F = 1, not a pseudo-instruction (R78). -/
  | flushFull
  | setWindow (x0 y0 x1 y1 : BitVec 16)
  | sendCmd (cb : Byte) (len : Word)
  | sendData (len : Word)
  | sendRawRegion (x y w h : BitVec 16)
  /-- Pseudo: one pixel. -/
  | setPix (x y : BitVec 16) (color : PackedColor)
  /-- Pseudo: whole rows. -/
  | fillRows (y h : BitVec 16) (color : PackedColor)
  /-- Pseudo: a command byte without parameters. -/
  | sendCmd0 (cb : Byte)
  /-- `READ NAME`, by the register's offset. -/
  | readReg (offset : Nat)
  /-- `WRITE NAME, value`, by the register's offset. -/
  | writeReg (offset : Nat) (value : Word)
deriving DecidableEq, Repr

/-- Two 16-bit fields, the first in the low half (R67). -/
def packHalves (lo hi : BitVec 16) : Word := (hi ++ lo : BitVec (16 + 16))

/-- `ARG1 <- v`. -/
def writeArg1 (v : Word) : HostEvent := .write 32 0x04 v
/-- `ARG2 <- v`. -/
def writeArg2 (v : Word) : HostEvent := .write 32 0x08 v
/-- `ARG3 <- v`. -/
def writeArg3 (v : Word) : HostEvent := .write 32 0x0C v
/-- `OP <- w`. -/
def writeOp (i : Instr) : HostEvent := .write 32 0x00 (encode i)

/-- The lines of the 14 instructions (R77). -/
def assembleFillRect (x y w h : BitVec 16) (color : PackedColor) : List HostEvent :=
  [writeArg1 (packHalves x y), writeArg2 (packHalves w h), writeArg3 (color.setWidth 32), writeOp .fillRect]

/-- `SEND_CMD cb, len` (R77). -/
def assembleSendCmd (cb : Byte) (len : Word) : List HostEvent := [writeArg1 len, writeOp (.sendCmd cb)]

/-- The host events of a line (R77, R78). -/
def assemble : AsmLine → List HostEvent
  | .reset => [writeOp .reset]
  | .init => [writeOp .init]
  | .cvtPack r g b => [writeArg1 (rgbWord { r := r, g := g, b := b }), writeOp .cvtPack]
  | .cvtUnpack c => [writeArg1 (c.setWidth 32), writeOp .cvtUnpack]
  | .almostEq a b t => [writeArg1 (packHalves a b), writeArg2 t, writeOp .almostEq]
  | .fillRect x y w h color => assembleFillRect x y w h color
  | .clear color => [writeArg3 (color.setWidth 32), writeOp .clear]
  | .blit x y w h sx sy =>
    [writeArg1 (packHalves x y), writeArg2 (packHalves w h), writeArg3 (packHalves sx sy), writeOp .blit]
  | .scan => [writeOp .scan]
  | .flush => [writeOp (.flush false)]
  | .flushFull => [writeOp (.flush true)]
  | .setWindow x0 y0 x1 y1 => [writeArg1 (packHalves x0 y0), writeArg2 (packHalves x1 y1), writeOp .setWindow]
  | .sendCmd cb len => assembleSendCmd cb len
  | .sendData len => [writeArg1 len, writeOp .sendData]
  | .sendRawRegion x y w h => [writeArg1 (packHalves x y), writeArg2 (packHalves w h), writeOp .sendRawRegion]
  | .setPix x y color => assembleFillRect x y 1 1 color
  | .fillRows y h color => assembleFillRect 0 y 240 h color
  | .sendCmd0 cb => assembleSendCmd cb 0
  | .readReg offset => [.read 32 offset]
  | .writeReg offset v => [.write 32 offset v]

/-! ### The text of a line (R77) -/

/-- A decimal digit. -/
def decDigit (c : Char) : Option Nat :=
  if '0' ≤ c ∧ c ≤ '9' then some (c.toNat - 48) else none

/-- A hexadecimal digit, either case. -/
def hexDigit (c : Char) : Option Nat :=
  if '0' ≤ c ∧ c ≤ '9' then some (c.toNat - 48)
  else if 'a' ≤ c ∧ c ≤ 'f' then some (c.toNat - 87)
  else if 'A' ≤ c ∧ c ≤ 'F' then some (c.toNat - 55)
  else none

/-- Digits of a base, most significant first; at least one is needed. -/
def parseDigits (digit : Char → Option Nat) (base : Nat) : List Char → Option Nat
  | [] => none
  | cs => cs.foldlM (fun n c => (digit c).map (n * base + ·)) 0

/-- A number: decimal, or hexadecimal with `0x` (R77). -/
def parseNumber : List Char → Option Nat
  | '0' :: 'x' :: cs => parseDigits hexDigit 16 cs
  | cs => parseDigits decDigit 10 cs

/-- A number that fits `n` bits: no operand is cut down to its field silently (00_scope.md R8). -/
def parseField (n : Nat) (cs : List Char) : Option (BitVec n) :=
  (parseNumber cs).bind fun v => if v < 2 ^ n then some (BitVec.ofNat n v) else none

/-- A space or a tab. -/
def blankChar (c : Char) : Bool := c == ' ' || c == '\t'

/-- Without the blanks at both ends. -/
def trimBlanks (cs : List Char) : List Char :=
  ((cs.dropWhile blankChar).reverse.dropWhile blankChar).reverse

/-- The comma-separated operands of a line, trimmed; none for an empty rest. -/
def splitOperands (cs : List Char) : List (List Char) :=
  if (trimBlanks cs).isEmpty then [] else (cs.splitOn ',').map trimBlanks

/-- The offset of a register name (10_state.md R16). -/
def registerOffset (name : List Char) : Option Nat :=
  if name = ['O', 'P'] then some 0x00
  else if name = ['A', 'R', 'G', '1'] then some 0x04
  else if name = ['A', 'R', 'G', '2'] then some 0x08
  else if name = ['A', 'R', 'G', '3'] then some 0x0C
  else if name = ['S', 'T', 'A', 'T', 'U', 'S'] then some 0x10
  else if name = ['R', 'E', 'S', 'U', 'L', 'T'] then some 0x14
  else if name = "FPS_ELAPSED".toList then some 0x18
  else if name = "CFG_MAXCHUNK".toList then some 0x1C
  else if name = "CFG_FLAGS".toList then some 0x20
  else none

/-- The line of a mnemonic with its operands (R77, R78); `none` outside the syntax. -/
def lineOf (mnemonic : List Char) (ops : List (List Char)) : Option AsmLine :=
  match String.ofList mnemonic, ops with
  | "RESET", [] => some .reset
  | "INIT", [] => some .init
  | "CVT_PACK", [r, g, b] => do return .cvtPack (← parseField 8 r) (← parseField 8 g) (← parseField 8 b)
  | "CVT_UNPACK", [c] => do return .cvtUnpack (← parseField 16 c)
  | "ALMOST_EQ", [a, b, t] => do return .almostEq (← parseField 16 a) (← parseField 16 b) (← parseField 32 t)
  | "FILL_RECT", [x, y, w, h, c] => do
    return .fillRect (← parseField 16 x) (← parseField 16 y) (← parseField 16 w) (← parseField 16 h) (← parseField 16 c)
  | "CLEAR", [c] => do return .clear (← parseField 16 c)
  | "BLIT", [x, y, w, h, sx, sy] => do
    return .blit (← parseField 16 x) (← parseField 16 y) (← parseField 16 w) (← parseField 16 h) (← parseField 16 sx)
      (← parseField 16 sy)
  | "SCAN", [] => some .scan
  | "FLUSH", [] => some .flush
  | "FLUSH.FULL", [] => some .flushFull
  | "SET_WINDOW", [x0, y0, x1, y1] => do
    return .setWindow (← parseField 16 x0) (← parseField 16 y0) (← parseField 16 x1) (← parseField 16 y1)
  | "SEND_CMD", [cb, len] => do return .sendCmd (← parseField 8 cb) (← parseField 32 len)
  | "SEND_DATA", [len] => do return .sendData (← parseField 32 len)
  | "SEND_RAW_REGION", [x, y, w, h] => do
    return .sendRawRegion (← parseField 16 x) (← parseField 16 y) (← parseField 16 w) (← parseField 16 h)
  | "SETPIX", [x, y, c] => do return .setPix (← parseField 16 x) (← parseField 16 y) (← parseField 16 c)
  | "FILL_ROWS", [y, h, c] => do return .fillRows (← parseField 16 y) (← parseField 16 h) (← parseField 16 c)
  | "SEND_CMD0", [cb] => do return .sendCmd0 (← parseField 8 cb)
  | "READ", [name] => (registerOffset name).map .readReg
  | "WRITE", [name, v] => do return .writeReg (← registerOffset name) (← parseField 32 v)
  | _, _ => none

/-- The host events of one line of text: a `;` starts a comment, a line without an operation gives no event, a line
outside the syntax gives `none`. -/
def assembleText (line : String) : Option (List HostEvent) :=
  let code := trimBlanks (line.toList.takeWhile (· ≠ ';'))
  if code.isEmpty then some []
  else
    (lineOf (code.takeWhile (fun c => !blankChar c)) (splitOperands (code.dropWhile (fun c => !blankChar c)))).map assemble

end Sys2Proof.Machine
end

