-- ==== Sys2Proof/Machine/Construct.lean ====
section
/-! DEFINITION. Construction from a requested configuration (00_scope.md R7): MAX_CHUNK = 0 is rejected before
anything happens, so that such a request has no initial state. -/

namespace Sys2Proof.Machine

/-- The parameters of a request whose MAX_CHUNK is any natural number (R7). -/
def requestParams (maxChunk : Nat) (p : Params) : Option Params :=
  if h : 0 < maxChunk then some { p with maxChunk := ⟨maxChunk, h⟩ } else none

/-- Construction on a request (R7, 70_reset_and_hazards.md R171): no state where the request is rejected. -/
def construct (maxChunk : Nat) (p : Params) (curDraw prevDraw : Nat → PackedColor) (argDraw : Nat → Word) (now : Nat)
    (payload : PayloadPort) (source : SourcePort) (io : IoOracle) (clock : TimePort) : Option State :=
  (requestParams maxChunk p).map fun q =>
    State.constructed q curDraw prevDraw argDraw now payload source io clock

end Sys2Proof.Machine
end

