-- ==== Sys2Proof/Machine/Observation.lean ====
section
/-! DEFINITION. What is read off a run: the wire stream of a trace (00_scope.md R12, 20_memory.md R63), the levels
last driven (10_state.md R29) and the frames-per-second reading (R21). No operation uses these. -/

namespace Sys2Proof.Machine

/-- What the panel is given, in order: a byte with the level of the mode line, a level of the reset line, a wait. -/
inductive PanelItem where
  | byte (dc : Level) (b : Byte)
  | resetLine (level : Bool)
  | wait (ms : Nat)
deriving DecidableEq, Repr

/-- R12 from a given level of the mode line: the bytes of each `Bus` event with the level of the last `Pin(DC, _)`,
and the reset and delay events in their places. A failed write gives nothing (K10: what the panel received of it is
outside the block). -/
def panelViewFrom : Level → List Event → List PanelItem
  | _, [] => []
  | _, .pin .dc v :: es => panelViewFrom (Level.ofBool v) es
  | l, .pin .rst v :: es => .resetLine v :: panelViewFrom l es
  | l, .bus bytes :: es => bytes.map (.byte l) ++ panelViewFrom l es
  | l, .delay ms :: es => .wait ms :: panelViewFrom l es
  | l, .pinFail _ _ :: es => panelViewFrom l es
  | l, .busFail _ :: es => panelViewFrom l es

/-- The panel-level meaning of a trace (R12). Two traces with the same view are equivalent for the panel. -/
def panelView (trace : List Event) : List PanelItem := panelViewFrom .unknown trace

/-- The pair of a byte item. -/
def PanelItem.wire : PanelItem → Option (Level × Byte)
  | .byte dc b => some (dc, b)
  | .resetLine _ => none
  | .wait _ => none

/-- The wire stream of a trace: the pairs `(dc, byte)` (R12). -/
def wireStream (trace : List Event) : List (Level × Byte) := (panelView trace).filterMap PanelItem.wire

/-- The level of a line after one more event (R33). -/
def levelAfter (pin : Pin) (l : Level) : Event → Level
  | .pin p v => if p = pin then Level.ofBool v else l
  | .pinFail p _ => if p = pin then .unknown else l
  | .bus _ => l
  | .delay _ => l
  | .busFail _ => l

/-- The last level driven on a line, as the trace tells it (R29). -/
def lastLevel (pin : Pin) (trace : List Event) : Level := trace.foldl (levelAfter pin) .unknown

/-- The FPS reading (R21): `1000 / FPS_ELAPSED` exactly, or no sample. -/
def fpsReading (s : State) : Option ℚ :=
  if s.fpsElapsed = 0 then none else some (1000 / (s.fpsElapsed.toNat : ℚ))

end Sys2Proof.Machine
end

