-- ==== Sys2Proof/Safety.lean ====
section
/-! DEFINITION. What counts as a safe run, and the words the statements use: premises on the environment, the
conditions under which an operation executes, the events a command or window puts on the trace, and the invariant
of the machine. -/

namespace Sys2Proof

open Machine

/-! ### Premises -/

/-- "every draw is ok" (10_state.md R36). -/
def IoAllOk (s : State) : Prop := (∀ b ∈ s.io.draws, b = true) ∧ s.io.beyond = true

/-- The one law of the time port (R32): successive draws do not decrease. -/
def ClockLaw (s : State) : Prop := (s.lastMs :: s.clock.draws).Pairwise (· ≤ ·)

/-- Every operand register the operation reads has been written (30_encoding.md R72, R80). -/
def ArgsWritten (i : Instr) (s : State) : Prop := ∀ k ∈ argsRead i, (s.arg k).written = true

/-- A good final state: nothing has faulted (60_exceptions.md R154). -/
def GoodEnd (s : State) : Prop := s.fault = false

/-- The dispatch accepts the operation (30_encoding.md R80): the block is not halted and every operand is written. -/
def Accepted (i : Instr) (s : State) : Prop := s.fault = false ∧ ArgsWritten i s

/-- The offset of an operand register (10_state.md R16). -/
def argOffset : ArgName → Nat
  | .arg1 => 0x04
  | .arg2 => 0x08
  | .arg3 => 0x0C

/-- The bits of an operand register that the layout an operation uses names (30_encoding.md R67, R69); the others are
ignored (R76), as is a whole register the operation does not read (R72). -/
def operandMask : Instr → ArgName → Word
  | .cvtPack, .arg1 => 0x00FFFFFF
  | .cvtUnpack, .arg1 => 0x0000FFFF
  | .almostEq, .arg1 => 0xFFFFFFFF
  | .almostEq, .arg2 => 0xFFFFFFFF
  | .fillRect, .arg1 => 0xFFFFFFFF
  | .fillRect, .arg2 => 0xFFFFFFFF
  | .fillRect, .arg3 => 0x0000FFFF
  | .clear, .arg3 => 0x0000FFFF
  | .blit, .arg1 => 0xFFFFFFFF
  | .blit, .arg2 => 0xFFFFFFFF
  | .blit, .arg3 => 0xFFFFFFFF
  | .setWindow, .arg1 => 0xFFFFFFFF
  | .setWindow, .arg2 => 0xFFFFFFFF
  | .sendCmd _, .arg1 => 0xFFFFFFFF
  | .sendData, .arg1 => 0xFFFFFFFF
  | .sendRawRegion, .arg1 => 0xFFFFFFFF
  | .sendRawRegion, .arg2 => 0xFFFFFFFF
  | _, _ => 0

/-- R106 (42_scanner.md): some cell of row `y` of cur is not almost equal to the same cell of prev at tolerance 2. -/
def RowDirty (cur prev : Grid) (y : Fin HEIGHT) : Prop :=
  ∃ x, almostEq (cur.cell x y) (prev.cell x y) 2 = false

/-- The elapsed-time sample a successful FLUSH stores (45_protocol.md R144), as a number. -/
def elapsedSample (s : State) : Nat := min 4294967295 (max 1 (s.now - s.lastMs))

/-! ### Kinds of operation -/

/-- The drawing operations, the only writers of `cur` (10_state.md R25). -/
def drawsCur : Instr → Bool
  | .fillRect => true
  | .clear => true
  | .blit => true
  | .reset => false
  | .init => false
  | .cvtPack => false
  | .cvtUnpack => false
  | .almostEq => false
  | .scan => false
  | .flush _ => false
  | .setWindow => false
  | .sendCmd _ => false
  | .sendData => false
  | .sendRawRegion => false

/-- The operations that define a RESULT (R20). -/
def definesResult : Instr → Bool
  | .cvtPack => true
  | .cvtUnpack => true
  | .almostEq => true
  | .scan => true
  | .flush _ => true
  | .reset => false
  | .init => false
  | .fillRect => false
  | .clear => false
  | .blit => false
  | .setWindow => false
  | .sendCmd _ => false
  | .sendData => false
  | .sendRawRegion => false

/-- The operations that may emit trace events (20_memory.md R55). -/
def emitsEvents : Instr → Bool
  | .reset => true
  | .init => true
  | .flush _ => true
  | .setWindow => true
  | .sendCmd _ => true
  | .sendData => true
  | .sendRawRegion => true
  | .cvtPack => false
  | .cvtUnpack => false
  | .almostEq => false
  | .fillRect => false
  | .clear => false
  | .blit => false
  | .scan => false

/-- The protocol states that allow an operation (60_exceptions.md R158). -/
def stateAllows : Instr → ProtoState → Bool
  | .init, p => p == .resetting
  | .flush _, p => p == .ready
  | .setWindow, p => p == .ready
  | .sendRawRegion, p => p == .ready
  | .reset, _ => true
  | .cvtPack, _ => true
  | .cvtUnpack, _ => true
  | .almostEq, _ => true
  | .fillRect, _ => true
  | .clear, _ => true
  | .blit, _ => true
  | .scan, _ => true
  | .sendCmd _, _ => true
  | .sendData, _ => true

/-- The bounds an operation needs (R159), on the fields of its operand registers as naturals. -/
def boundsAllow (i : Instr) (s : State) : Prop :=
  match i with
  | .fillRect =>
    s.arg1.value.toNat % 65536 + s.arg2.value.toNat % 65536 ≤ 240 ∧
      s.arg1.value.toNat / 65536 + s.arg2.value.toNat / 65536 ≤ 280
  | .blit =>
    s.arg1.value.toNat % 65536 + s.arg2.value.toNat % 65536 ≤ 240 ∧
      s.arg1.value.toNat / 65536 + s.arg2.value.toNat / 65536 ≤ 280
  | .setWindow =>
    s.arg1.value.toNat % 65536 < s.arg2.value.toNat % 65536 ∧ s.arg2.value.toNat % 65536 ≤ 240 ∧
      s.arg1.value.toNat / 65536 < s.arg2.value.toNat / 65536 ∧ s.arg2.value.toNat / 65536 ≤ 280
  | .sendRawRegion =>
    1 ≤ s.arg2.value.toNat % 65536 ∧ 1 ≤ s.arg2.value.toNat / 65536 ∧
      s.arg1.value.toNat % 65536 + s.arg2.value.toNat % 65536 ≤ 240 ∧
      s.arg1.value.toNat / 65536 + s.arg2.value.toNat / 65536 ≤ 280
  | .reset => True
  | .init => True
  | .cvtPack => True
  | .cvtUnpack => True
  | .almostEq => True
  | .clear => True
  | .scan => True
  | .flush _ => True
  | .sendCmd _ => True
  | .sendData => True

/-- The operations of a list one after the other, as long as each answers a next state. -/
def runOps : List Instr → State → Option State
  | [], s => some s
  | i :: is, s =>
    match exec i s with
    | .next t => runOps is t
    | .fault _ => none
    | .refused _ => none

/-! ### Events -/

/-- The events of `SendCommand` when every write succeeds (44_transmit.md R122). -/
def commandEvents (p : Params) (c : Byte) (params : List Byte) : List Event :=
  [.pin .dc p.dcCmdLevel, .bus [c], .pin .dc (!p.dcCmdLevel)] ++ (slices p.maxChunk params).map .bus

/-- The events of `SendData` when every write succeeds (R124). -/
def dataEvents (p : Params) (bytes : List Byte) : List Event :=
  .pin .dc (!p.dcCmdLevel) :: (slices p.maxChunk bytes).map .bus

/-- Four parameter bytes of two inclusive bounds, each high byte first (20_memory.md R49). -/
def boundParams (first last : Nat) : List Byte :=
  [BitVec.ofNat 8 (first / 256), BitVec.ofNat 8 (first % 256), BitVec.ofNat 8 (last / 256), BitVec.ofNat 8 (last % 256)]

/-- The events of a window of inclusive column bounds `xa..xb` and inclusive panel row bounds `ya..yb`. -/
def windowEvents (p : Params) (xa xb ya yb : Nat) : List Event :=
  commandEvents p p.cmdCaset (boundParams xa xb) ++ commandEvents p p.cmdRaset (boundParams ya yb) ++
    commandEvents p p.cmdRamwr []

/-- A failed write (00_scope.md R11). -/
def Machine.Event.failure : Event → Bool
  | .pinFail _ _ => true
  | .busFail _ => true
  | .pin _ _ => false
  | .bus _ => false
  | .delay _ => false

/-- The failing form of an event: what the trace holds when that write fails (00_scope.md R11). -/
def Machine.Event.failed : Event → Event
  | .pin p l => .pinFail p l
  | .bus bytes => .busFail bytes
  | .delay ms => .delay ms
  | .pinFail p l => .pinFail p l
  | .busFail bytes => .busFail bytes

/-- What R34 and R33 allow an event to be: a transfer of 1..MAX_CHUNK bytes; a reset line only where one is wired. -/
def eventAllowed (p : Params) : Event → Prop
  | .bus bytes => 1 ≤ bytes.length ∧ bytes.length ≤ p.maxChunk
  | .busFail bytes => 1 ≤ bytes.length ∧ bytes.length ≤ p.maxChunk
  | .pin pin _ => pin = .rst → p.hasResetPin = true
  | .pinFail pin _ => pin = .rst → p.hasResetPin = true
  | .delay _ => True

/-! ### The invariant -/

/-- What every step keeps. -/
structure BlockInv (s : State) : Prop where
  /-- FAULT is set exactly when a code is recorded (10_state.md R19, 60_exceptions.md R154). -/
  faultCoded : s.fault = s.faultCode.isSome
  /-- DC_LEVEL is the last level driven (R29, R33). -/
  dcTracked : s.dcLevel = lastLevel .dc s.trace
  /-- RST_LEVEL is the last level driven. -/
  rstTracked : s.rstLevel = lastLevel .rst s.trace
  /-- No transfer is empty or longer than MAX_CHUNK, and no reset line is driven that is not wired (R33, R34). -/
  eventsAllowed : ∀ e ∈ s.trace, eventAllowed s.cfg e
  /-- An I/O error stands only where the trace ends with the failing event (R129, R152, R157). -/
  errorTraced : s.err = .ioError → ∃ e, s.trace.getLast? = some e ∧ e.failure = true

end Sys2Proof
end

