-- ==== Sys2Proof/Certificates/Slice0/Obligations.lean ====
section
/-! DEFINITION. The statements about the block, from the numbered rules of spec/. -/

open Sys2Proof Sys2Proof.Machine

/-! ### Encoding (30_encoding.md) -/

/-- Decoding and encoding are inverse: a word decodes to an instruction exactly when it is that instruction's command
word (R66, R69, R79). -/
def Obligations.DecodeExactlyInvertsEncode : Prop :=
  ∀ (w : Word) (i : Instr), decode w = .ok i ↔ w = encode i

/-- R79: at most one row of the table covers a word; the decoder answers that row's instruction; a word no row covers
is illegal; each row fixes `w[7:0]` to an OPC of its own. -/
def Obligations.EveryWordIsOneInstructionOrIllegal : Prop :=
  (∀ w : Word, (opcodeTable.filter (fun r => r.covers w)).length ≤ 1) ∧
    (∀ w : Word, ∀ r ∈ opcodeTable, r.covers w = true → decode w = .ok (r.build w)) ∧
    (∀ w : Word, (∀ r ∈ opcodeTable, r.covers w = false) → ∃ e, decode w = .error e) ∧
    (∀ r ∈ opcodeTable, opcField r.mask = 0xFF) ∧
    opcodeTable.Pairwise (fun a b => opcField a.pattern ≠ opcField b.pattern)

/-- R73, R74, R153: the words that decode are exactly those with a known OPC and zeros in the reserved and misused
fields; writing any other to OP raises ILLEGAL_OP. The 242 illegal values of OPC are those R74 lists. -/
def Obligations.IllegalCommandWordRaisesIllegalOp : Prop :=
  (∀ w : Word, (∃ i, decode w = .ok i) ↔ legalWord w = true) ∧
    (∀ w : Word, legalWord w = true ↔
      opcField w ∈ opcodes ∧ rsv0Field w = 0 ∧ rsv1Field w = 0 ∧ (forceField w = true → opcField w = 0x31) ∧
        (cbField w ≠ 0 → opcField w = 0x41)) ∧
    (∀ b : Byte, b ∉ opcodes ↔
      b.toNat = 0 ∨ (0x03 ≤ b.toNat ∧ b.toNat ≤ 0x0F) ∨ (0x13 ≤ b.toNat ∧ b.toNat ≤ 0x1F) ∨
        (0x23 ≤ b.toNat ∧ b.toNat ≤ 0x2F) ∨ (0x32 ≤ b.toNat ∧ b.toNat ≤ 0x3F) ∨ 0x44 ≤ b.toNat) ∧
    (opcodes.Nodup ∧ opcodes.length + 242 = 256) ∧
    ∀ (s : State) (w : Word) (rest : List HostEvent), s.host = .write 32 0x00 w :: rest → s.fault = false →
      legalWord w = false →
      step s = .next { s with
        host := rest, position := s.position + 1, err := .ok, fault := true,
        faultCode := s.faultCode.or (some .illegalOp) }

/-- Words written out from the table's encodings decode to their instructions. -/
def Obligations.WrittenOutWordsDecode : Prop :=
  decode 0x00000001 = .ok .reset ∧ decode 0x00000020 = .ok .fillRect ∧ decode 0x00000131 = .ok (.flush true) ∧
    decode 0x00000031 = .ok (.flush false) ∧ decode 0x00360041 = .ok (.sendCmd 0x36) ∧
    decode 0x00FF0041 = .ok (.sendCmd 0xFF) ∧ decode 0x00000043 = .ok .sendRawRegion

/-! ### The host interface (10_state.md) -/

/-- When the host's next event writes a word that decodes to `i` into OP, the step is `exec` of `i` on the state from
which that event has been taken and in which the access has been counted (R17, R37, R80). -/
def Obligations.StepRunsTheDecodedInstruction : Prop :=
  ∀ (s : State) (w : Word) (rest : List HostEvent) (i : Instr), s.host = .write 32 0x00 w :: rest →
    decode w = .ok i → step s = exec i { s with host := rest, position := s.position + 1 }

/-- With no host event pending a step changes nothing: the model's form of a block that runs nothing by itself (log
entry 9). -/
def Obligations.IdleBlockStaysAsItIs : Prop :=
  ∀ s : State, s.host = [] → step s = .next s

/-- New port contents only replace the port's contents (R30, R31); the model's form of a host that changes a port
between operations (log entries 7 to 9). -/
def Obligations.PortContentsAreTheHosts : Prop :=
  ∀ (s : State) (rest : List HostEvent),
    (∀ p, s.host = .setPayload p :: rest → step s = .next { s with host := rest, payload := p }) ∧
      (∀ p, s.host = .setSource p :: rest → step s = .next { s with host := rest, source := p })

/-- R16, R19 to R23: a 32-bit aligned read returns the register at that offset and has no side effect on the block.
STATUS is `STATE | FAULT << 2 | ERR << 8 | FAULT_CODE << 16`. -/
def Obligations.ReadReturnsTheRegisterAndChangesNothing : Prop :=
  ∀ (s : State) (off : Nat) (rest : List HostEvent), s.host = .read 32 off :: rest → off % 4 = 0 → off ≤ 0xFF →
    ∃ v : Word,
      step s = .next { s with host := rest, position := s.position + 1, readLog := s.readLog ++ [v] } ∧
      (off = 0x00 → v = 0) ∧ (off = 0x04 → v = s.arg1.value) ∧ (off = 0x08 → v = s.arg2.value) ∧
      (off = 0x0C → v = s.arg3.value) ∧
      (off = 0x10 → v.toNat = s.proto.code.toNat + 4 * s.fault.toNat + 256 * s.err.code.toNat +
        65536 * (faultField s.faultCode).toNat) ∧
      (off = 0x14 → v = s.result) ∧ (off = 0x18 → v = s.fpsElapsed) ∧
      (off = 0x1C → v.toNat = min 0xFFFFFFFF s.cfg.maxChunk) ∧ (off = 0x20 → v.toNat = s.cfg.hasResetPin.toNat) ∧
      (0x24 ≤ off → v = 0)

/-- The values of STATUS's fields (R19, R27, 60_exceptions.md R152). -/
def Obligations.StatusFieldValues : Prop :=
  ProtoState.uninitialized.code = 0 ∧ ProtoState.resetting.code = 1 ∧ ProtoState.configuring.code = 2 ∧
    ProtoState.ready.code = 3 ∧ ErrCode.ok.code = 0 ∧ ErrCode.ioError.code = 1 ∧ faultField none = 0 ∧
    faultField (some .illegalOp) = 1 ∧ faultField (some .state) = 2 ∧ faultField (some .bounds) = 3 ∧
    faultField (some .unwrittenArg) = 4

/-- A write to a read-only register or a reserved offset is ignored (R16, R23). -/
def Obligations.WriteToReadOnlyOffsetIsIgnored : Prop :=
  ∀ (s : State) (off : Nat) (v : Word) (rest : List HostEvent), s.host = .write 32 off v :: rest → off % 4 = 0 →
    0x10 ≤ off → off ≤ 0xFF → step s = .next { s with host := rest, position := s.position + 1 }

/-- R18, R155: an operand register holds the last value the host wrote and reads it back; no operation writes one; an
operation that reads one whose flag is false raises UNWRITTEN_ARG; the flags are false at construction. -/
def Obligations.OperandRegistersHoldTheHostsLastWrite : Prop :=
  (∀ (s : State) (k : ArgName) (v : Word) (rest : List HostEvent), s.host = .write 32 (argOffset k) v :: rest →
    step s = .next { s with
      host := rest, position := s.position + 1,
      arg1 := if k = .arg1 then ⟨v, true⟩ else s.arg1, arg2 := if k = .arg2 then ⟨v, true⟩ else s.arg2,
      arg3 := if k = .arg3 then ⟨v, true⟩ else s.arg3 }) ∧
    (∀ (s : State) (k : ArgName) (rest : List HostEvent), s.host = .read 32 (argOffset k) :: rest →
      step s = .next { s with
        host := rest, position := s.position + 1, readLog := s.readLog ++ [(s.arg k).value] }) ∧
    (∀ (i : Instr) (s t : State), exec i s = .next t → ∀ k, t.arg k = s.arg k) ∧
    (∀ (i : Instr) (s : State), s.fault = false → ¬ ArgsWritten i s →
      exec i s = .next { s with
        err := .ok, fault := true, faultCode := s.faultCode.or (some .unwrittenArg) }) ∧
    ∀ k, (State.reset.arg k).written = false

/-- R23, R50: an access that is not a 32-bit access at a multiple-of-4 offset in 0x00..0xFF is refused. -/
def Obligations.AccessOutsideTheInterfaceIsRefused : Prop :=
  ∀ (s : State) (width off : Nat) (rest : List HostEvent), (width ≠ 32 ∨ off % 4 ≠ 0 ∨ 0xFF < off) →
    (s.host = .read width off :: rest → step s = .refused (.accessOutsideInterface width off)) ∧
      ∀ v, s.host = .write width off v :: rest → step s = .refused (.accessOutsideInterface width off)

/-! ### Construction (10_state.md R40, 00_scope.md R7) -/

/-- R40: what construction leaves, for every parameter, every draw of the unspecified values and every
environment. -/
def Obligations.ConstructionLeavesTheResetValues : Prop :=
  ∀ (p : Params) (curDraw prevDraw : Nat → PackedColor) (argDraw : Nat → Word) (now : Nat) (payload : PayloadPort)
    (source : SourcePort) (io : IoOracle) (clock : TimePort),
    let s := State.constructed p curDraw prevDraw argDraw now payload source io clock
    (∀ i : Fin NCELLS, s.cur.at i = curDraw i ∧ s.prev.at i = prevDraw i) ∧ s.proto = .uninitialized ∧
      s.fault = false ∧ s.faultCode = none ∧ s.err = .ok ∧ s.result = 0 ∧ s.fpsElapsed = 0 ∧
      (∀ k, (s.arg k).written = false) ∧ s.lastMs = now ∧ s.dcLevel = .unknown ∧ s.rstLevel = .unknown ∧
      s.trace = [] ∧ s.cfg = p

/-- R7: a configuration with MAX_CHUNK = 0 is not constructed; any other is, with that MAX_CHUNK. -/
def Obligations.ZeroMaxChunkIsNotConstructed : Prop :=
  ∀ (n : Nat) (p : Params) (curDraw prevDraw : Nat → PackedColor) (argDraw : Nat → Word) (now : Nat)
    (payload : PayloadPort) (source : SourcePort) (io : IoOracle) (clock : TimePort),
    construct 0 p curDraw prevDraw argDraw now payload source io clock = none ∧
      ∃ s, construct (n + 1) p curDraw prevDraw argDraw now payload source io clock = some s ∧
        (s.cfg.maxChunk : Nat) = n + 1

/-! ### Faults and I/O errors (60_exceptions.md) -/

/-- R154, R162: an operation that ends in a fault has no effect but STATUS.FAULT, STATUS.FAULT_CODE (kept if it holds
a code) and ERR = 0. -/
def Obligations.FaultingOperationHasNoOtherEffect : Prop :=
  ∀ (i : Instr) (s t : State), exec i s = .next t → s.fault = false → t.fault = true →
    ∃ code, t = { s with err := .ok, fault := true, faultCode := s.faultCode.or (some code) }

/-- R155, R158, R159, R160: an operation on a block that is not halted faults exactly when an operand is unwritten,
the protocol state does not allow it or its bounds fail, and it reports the first of these in that order. -/
def Obligations.FirstCauseInOrderIsReported : Prop :=
  ∀ (i : Instr) (s : State), s.fault = false → s.faultCode = none →
    ∃ t, exec i s = .next t ∧
      (¬ ArgsWritten i s → t.fault = true ∧ t.faultCode = some .unwrittenArg) ∧
      (ArgsWritten i s → stateAllows i s.proto = false → t.fault = true ∧ t.faultCode = some .state) ∧
      (ArgsWritten i s → stateAllows i s.proto = true → ¬ boundsAllow i s →
        t.fault = true ∧ t.faultCode = some .bounds) ∧
      (ArgsWritten i s → stateAllows i s.proto = true → boundsAllow i s → t.fault = false ∧ t.faultCode = none)

/-- R156: while FAULT = 1 a write to OP is ignored, ARG writes store, reads return values, and nothing clears
FAULT or changes its code. -/
def Obligations.HaltedBlockIgnoresCommands : Prop :=
  ∀ s : State, s.fault = true →
    (∀ (w : Word) (rest : List HostEvent), s.host = .write 32 0x00 w :: rest →
      step s = .next { s with host := rest, position := s.position + 1 }) ∧
    (∀ (k : ArgName) (v : Word) (rest : List HostEvent), s.host = .write 32 (argOffset k) v :: rest →
      ∃ t, step s = .next t ∧ t.arg k = ⟨v, true⟩) ∧
    (∀ (off : Nat) (rest : List HostEvent), s.host = .read 32 off :: rest → off % 4 = 0 → off ≤ 0xFF →
      ∃ t v, step s = .next t ∧ t.readLog = s.readLog ++ [v]) ∧
    ∀ t, step s = .next t → t.fault = true ∧ t.faultCode = s.faultCode

/-- The first fault's code is never replaced (R19, R154, R160). -/
def Obligations.FirstFaultCodeIsKept : Prop :=
  ∀ (s t : State) (code : FaultCode), step s = .next t → s.faultCode = some code → t.faultCode = some code

/-- R129, R157: an operation that ends in an I/O error stops at the failing write. What it appended are the first
events it would have appended with every write ok, and then the failing event; FAULT is not set; RESULT, the grids
and the FPS sample are unchanged. One that ends without an I/O error appended no failing event. -/
def Obligations.IoErrorStopsAtTheFailingWrite : Prop :=
  ∀ (i : Instr) (s t u : State), s.fault = false → exec i s = .next t →
    exec i { s with io := { draws := [], beyond := true } } = .next u →
    (t.err = .ioError → ∃ before e after, u.trace = s.trace ++ before ++ e :: after ∧
      t.trace = s.trace ++ before ++ [e.failed] ∧ e.failed.failure = true ∧ t.fault = false ∧
      t.faultCode = s.faultCode ∧ t.result = s.result ∧ t.cur = s.cur ∧ t.prev = s.prev ∧
      t.fpsElapsed = s.fpsElapsed ∧ t.lastMs = s.lastMs) ∧
    (t.err = .ok → t.trace = u.trace ∧ ∀ e ∈ t.trace.drop s.trace.length, e.failure = false)

/-- R36, R129: SEND_DATA takes one draw for each of its writes, in order, and stops at the first that fails. -/
def Obligations.SendDataFailsAtTheFirstFailingDraw : Prop :=
  ∀ (s : State) (k : Nat) (more : List Bool) (e : Event), Accepted .sendData s →
    s.io.draws = List.replicate k true ++ false :: more →
    (dataEvents s.cfg ((List.range s.arg1.value.toNat).map (payloadByte s.payload)))[k]? = some e →
    ∃ t, exec .sendData s = .next t ∧ t.err = .ioError ∧ t.io = { s.io with draws := more } ∧
      t.trace = s.trace ++
        (dataEvents s.cfg ((List.range s.arg1.value.toNat).map (payloadByte s.payload))).take k ++ [e.failed]

/-! ### PackedColor (40_color.md) -/

/-- CVT_PACK (R86, R87): with R, G, B = ARG1[7:0], [15:8], [23:16] and N = R/8 : G/4 : B/8, RESULT is N with its two
bytes exchanged; nothing else changes but ERR. -/
def Obligations.CvtPackResult : Prop :=
  ∀ s : State, Accepted .cvtPack s →
    let a := s.arg1.value.toNat
    let n := a % 256 / 8 * 2048 + a / 256 % 256 / 4 * 32 + a / 65536 % 256 / 8
    exec .cvtPack s = .next { s with err := .ok, result := BitVec.ofNat 32 (n % 256 * 256 + n / 256) }

/-- CVT_UNPACK (R88): with N the byte-exchanged ARG1[15:0], the channels are 8q + 7 (red N[15:11], blue N[4:0]) or
4q + 3 (green N[10:5]) of a group q, 0 for a zero group, and RESULT is b : g : r. -/
def Obligations.CvtUnpackResult : Prop :=
  ∀ s : State, Accepted .cvtUnpack s →
    let a := s.arg1.value.toNat % 65536
    let n := a % 256 * 256 + a / 256
    let five := fun q : Nat => if q = 0 then 0 else 8 * q + 7
    let six := fun q : Nat => if q = 0 then 0 else 4 * q + 3
    exec .cvtUnpack s = .next { s with
      err := .ok
      result := BitVec.ofNat 32 (five (n % 32) * 65536 + six (n / 32 % 64) * 256 + five (n / 2048)) }

/-- ALMOST_EQ (R90): RESULT is 1 when A = B or every channel differs by at most T times 8 (red, blue) or 4 (green) on
unbounded naturals, else 0. -/
def Obligations.AlmostEqResult : Prop :=
  ∀ s : State, Accepted .almostEq s →
    let a := s.arg1.value.toNat % 65536
    let b := s.arg1.value.toNat / 65536
    let t := s.arg2.value.toNat
    let natural := fun v : Nat => v % 256 * 256 + v / 256
    let five := fun q : Nat => if q = 0 then 0 else 8 * q + 7
    let six := fun q : Nat => if q = 0 then 0 else 4 * q + 3
    let apart := fun x y : Nat => (x - y) + (y - x)
    exec .almostEq s = .next { s with
      err := .ok
      result :=
        if a = b ∨ (apart (five (natural a / 2048)) (five (natural b / 2048)) ≤ t * 8 ∧
          apart (six (natural a / 32 % 64)) (six (natural b / 32 % 64)) ≤ t * 4 ∧
          apart (five (natural a % 32)) (five (natural b % 32)) ≤ t * 8) then 1 else 0 }

/-- R89: packing and unpacking moves red and blue by at most 7 and green by at most 3; a channel becomes 0 exactly
below 8 (red, blue) or 4 (green); black and white come back exactly. -/
def Obligations.RoundTripIsWithinTheQuantisation : Prop :=
  (∀ c : Rgb,
    let d := channels (fromChannels c)
    channelDistance d.r c.r ≤ 7 ∧ channelDistance d.g c.g ≤ 3 ∧ channelDistance d.b c.b ≤ 7 ∧
      (d.r = 0 ↔ c.r.toNat < 8) ∧ (d.g = 0 ↔ c.g.toNat < 4) ∧ (d.b = 0 ↔ c.b.toNat < 8)) ∧
    channels (fromChannels ⟨0, 0, 0⟩) = ⟨0, 0, 0⟩ ∧ channels (fromChannels ⟨255, 255, 255⟩) = ⟨255, 255, 255⟩

/-- R91: the laws of AlmostEq. -/
def Obligations.AlmostEqLaws : Prop :=
  (∀ c t, almostEq c c t = true) ∧ (∀ a b t, almostEq a b t = almostEq b a t) ∧
    (∀ a b, almostEq a b 0 = true ↔ a = b) ∧ (∀ a b t, 64 ≤ t → almostEq a b t = true) ∧
    (∀ (p q : BitVec 5) (t : Nat), p ≠ 0 → q ≠ 0 →
      (channelDistance (expand5 p) (expand5 q) ≤ t * 8 ↔ (p.toNat - q.toNat) + (q.toNat - p.toNat) ≤ t)) ∧
    (∀ (q : BitVec 5) (t : Nat), q ≠ 0 →
      (channelDistance (expand5 0) (expand5 q) ≤ t * 8 ↔ 1 ≤ t ∧ q.toNat ≤ t - 1)) ∧
    (∀ (p q : BitVec 6) (t : Nat), p ≠ 0 → q ≠ 0 →
      (channelDistance (expand6 p) (expand6 q) ≤ t * 4 ↔ (p.toNat - q.toNat) + (q.toNat - p.toNat) ≤ t)) ∧
    (∀ (q : BitVec 6) (t : Nat), q ≠ 0 →
      (channelDistance (expand6 0) (expand6 q) ≤ t * 4 ↔ 1 ≤ t ∧ q.toNat ≤ t - 1)) ∧
    (almostEq 0x0000 0x0008 2 = true ∧ almostEq 0x0008 0x0018 2 = true ∧ almostEq 0x0000 0x0018 2 = false)

/-! ### FrameBuffer (41_framebuffer.md) -/

/-- FILL_RECT (R96, R97): exactly the cells of the rectangle take the colour; nothing else changes but ERR. -/
def Obligations.FillRectWritesExactlyTheRectangle : Prop :=
  ∀ s : State, Accepted .fillRect s → boundsAllow .fillRect s →
    ∃ g : Grid, exec .fillRect s = .next { s with err := .ok, cur := g } ∧
      ∀ (x : Fin WIDTH) (y : Fin HEIGHT),
        g.cell x y =
          if s.arg1.value.toNat % 65536 ≤ x ∧ x < s.arg1.value.toNat % 65536 + s.arg2.value.toNat % 65536 ∧
            s.arg1.value.toNat / 65536 ≤ y ∧ y < s.arg1.value.toNat / 65536 + s.arg2.value.toNat / 65536
          then BitVec.ofNat 16 s.arg3.value.toNat else s.cur.cell x y

/-- CLEAR (R98): every cell takes the colour; nothing else changes but ERR. -/
def Obligations.ClearWritesEveryCell : Prop :=
  ∀ s : State, Accepted .clear s →
    ∃ g : Grid, exec .clear s = .next { s with err := .ok, cur := g } ∧
      ∀ i : Fin NCELLS, g.at i = BitVec.ofNat 16 s.arg3.value.toNat

/-- R99: CLEAR leaves the same state as FILL_RECT 0, 0, 240, 280 with the same colour; the difference is that CLEAR
reads ARG3 alone. -/
def Obligations.ClearIsTheFullFill : Prop :=
  (∀ s : State, Accepted .fillRect s → s.arg1.value = 0 → s.arg2.value = 0x011800F0 →
    exec .clear s = exec .fillRect s) ∧
    (∀ s : State, s.fault = false → s.faultCode = none →
      ∃ t u, exec .clear s = .next t ∧ exec .fillRect s = .next u ∧
        (t.faultCode = some .unwrittenArg ↔ s.arg3.written = false) ∧
        (u.faultCode = some .unwrittenArg ↔
          s.arg1.written = false ∨ s.arg2.written = false ∨ s.arg3.written = false))

/-- BLIT (R100): a cell of the destination takes the packed source pixel at its own offset from the two origins where
the source has one, and every other cell is left as it was; nothing else changes but ERR. -/
def Obligations.BlitWritesTheOverlap : Prop :=
  ∀ s : State, Accepted .blit s → boundsAllow .blit s →
    ∃ g : Grid, exec .blit s = .next { s with err := .ok, cur := g } ∧
      ∀ (x : Fin WIDTH) (y : Fin HEIGHT),
        let dx := s.arg1.value.toNat % 65536
        let dy := s.arg1.value.toNat / 65536
        let sx := s.arg3.value.toNat % 65536 + (x - dx)
        let sy := s.arg3.value.toNat / 65536 + (y - dy)
        g.cell x y =
          if (dx ≤ x ∧ x < dx + s.arg2.value.toNat % 65536 ∧ dy ≤ y ∧ y < dy + s.arg2.value.toNat / 65536) ∧
            sx < s.source.width ∧ sy < s.source.height
          then fromChannels (srcPixel s.source sx sy) else s.cur.cell x y

/-- R103: the length of RawBytes, and its bytes: `hi8(N)` then `lo8(N)` of each cell in index order. -/
def Obligations.RawBytesAreTheCellsInOrder : Prop :=
  (∀ (g : Grid) (top bottom : Nat), top ≤ bottom → bottom ≤ 279 →
    (rawBytes g top bottom).length = (bottom - top + 1) * 480 ∧
      ∀ (k : Nat) (i : Fin NCELLS), k < (bottom - top + 1) * 240 → i.val = 240 * top + k →
        (rawBytes g top bottom)[2 * k]? = some (hi8 (swap16 (g.at i))) ∧
          (rawBytes g top bottom)[2 * k + 1]? = some (lo8 (swap16 (g.at i)))) ∧
    ∀ g : Grid, (rawBytes g 0 279).length = 134400

/-! ### DirtyRegionScanner (42_scanner.md) -/

/-- SCAN (R106, R107, R109): RESULT is 0xFFFFFFFF exactly when no row is dirty; otherwise it holds the first dirty row
and, in the high half, the last. Nothing else changes but ERR, in any protocol state. -/
def Obligations.ScanFindsTheDirtyRows : Prop :=
  ∀ s : State, Accepted .scan s →
    ∃ r : Word, exec .scan s = .next { s with err := .ok, result := r } ∧
      (r = 0xFFFFFFFF ↔ ∀ y, ¬ RowDirty s.cur s.prev y) ∧
      (r ≠ 0xFFFFFFFF → ∃ top bottom : Fin HEIGHT, r.toNat = bottom * 65536 + top ∧ top ≤ bottom ∧
        RowDirty s.cur s.prev top ∧ RowDirty s.cur s.prev bottom ∧
        ∀ y, y < top ∨ bottom < y → ¬ RowDirty s.cur s.prev y)

/-- R110: at the scanner's tolerance two cells are almost equal exactly when in each lane the groups are equal, or
both nonzero and at most 2 apart, or one is zero and the other 1. -/
def Obligations.ScanToleranceLaneByLane : Prop :=
  ∀ a b : PackedColor,
    let close := fun p q : Nat =>
      p = q ∨ (p ≠ 0 ∧ q ≠ 0 ∧ p ≤ q + 2 ∧ q ≤ p + 2) ∨ (p = 0 ∧ q = 1) ∨ (p = 1 ∧ q = 0)
    let n := (swap16 a).toNat
    let m := (swap16 b).toNat
    almostEq a b SCAN_TOL = true ↔
      close (n / 2048) (m / 2048) ∧ close (n / 32 % 64) (m / 32 % 64) ∧ close (n % 32) (m % 32)

/-! ### WindowAddresser (43_window.md) -/

/-- SET_WINDOW (R113 to R117): with every write ok it sends the columns X0..X1 - 1 and the rows Y0 + 20..Y1 + 19, each
bound high byte first, then the memory-write command; the mode line stays at the data level; nothing else changes. -/
def Obligations.SetWindowSendsTheInclusiveBounds : Prop :=
  ∀ s : State, Accepted .setWindow s → s.proto = .ready → boundsAllow .setWindow s → IoAllOk s →
    ∃ t, exec .setWindow s = .next t ∧
      t.trace = s.trace ++ windowEvents s.cfg (s.arg1.value.toNat % 65536) (s.arg2.value.toNat % 65536 - 1)
        (s.arg1.value.toNat / 65536 + 20) (s.arg2.value.toNat / 65536 + 19) ∧
      t.dcLevel = Level.ofBool (!s.cfg.dcCmdLevel) ∧
      t = { s with err := .ok, trace := t.trace, dcLevel := t.dcLevel, io := t.io }

/-! ### ChunkedTransmitter (44_transmit.md) -/

/-- SEND_CMD (R122, R123): the command byte alone at the command level, then LEN payload bytes at the data level, in
any protocol state; nothing else changes. -/
def Obligations.SendCmdFramesTheCommand : Prop :=
  ∀ (cb : Byte) (s : State), Accepted (.sendCmd cb) s → IoAllOk s →
    ∃ t, exec (.sendCmd cb) s = .next t ∧
      t.trace = s.trace ++
        commandEvents s.cfg cb ((List.range s.arg1.value.toNat).map (payloadByte s.payload)) ∧
      t.dcLevel = Level.ofBool (!s.cfg.dcCmdLevel) ∧
      t = { s with err := .ok, trace := t.trace, dcLevel := t.dcLevel, io := t.io }

/-- SEND_DATA (R124 to R126): the data level, then the payload in `ceil(L / M)` transfers, each of M bytes but the
last, which together carry exactly the payload; nothing else changes. -/
def Obligations.SendDataChunksThePayload : Prop :=
  ∀ s : State, Accepted .sendData s → IoAllOk s →
    ∃ (t : State) (chunks : List (List Byte)), exec .sendData s = .next t ∧
      t.trace = s.trace ++ .pin .dc (!s.cfg.dcCmdLevel) :: chunks.map .bus ∧
      chunks.flatten = (List.range s.arg1.value.toNat).map (payloadByte s.payload) ∧
      chunks.length = (s.arg1.value.toNat + s.cfg.maxChunk - 1) / s.cfg.maxChunk ∧
      (∀ k c, k + 1 < chunks.length → chunks[k]? = some c → c.length = s.cfg.maxChunk) ∧
      (∀ c, chunks.getLast? = some c →
        c.length = s.arg1.value.toNat - s.cfg.maxChunk * (chunks.length - 1) ∧ 1 ≤ c.length) ∧
      t.dcLevel = Level.ofBool (!s.cfg.dcCmdLevel) ∧
      t = { s with err := .ok, trace := t.trace, dcLevel := t.dcLevel, io := t.io }

/-- SEND_RAW_REGION (R127, R128): the window of the rectangle, then exactly `2 * W * H` payload bytes as they are;
neither grid, RESULT nor the FPS sample changes, nor anything else. -/
def Obligations.SendRawRegionBypassesTheBuffer : Prop :=
  ∀ s : State, Accepted .sendRawRegion s → s.proto = .ready → boundsAllow .sendRawRegion s → IoAllOk s →
    let x := s.arg1.value.toNat % 65536
    let y := s.arg1.value.toNat / 65536
    let w := s.arg2.value.toNat % 65536
    let h := s.arg2.value.toNat / 65536
    ∃ t, exec .sendRawRegion s = .next t ∧
      t.trace = s.trace ++ (windowEvents s.cfg x (x + w - 1) (y + 20) (y + h + 19) ++
        dataEvents s.cfg ((List.range (2 * w * h)).map (payloadByte s.payload))) ∧
      t.dcLevel = Level.ofBool (!s.cfg.dcCmdLevel) ∧
      t = { s with err := .ok, trace := t.trace, dcLevel := t.dcLevel, io := t.io }

/-- R12, R63, R126: with every write ok, the chunk size changes nothing the panel sees. Two blocks that differ only in
MAX_CHUNK and run the same operation have traces of the same panel view, and otherwise equal states. -/
def Obligations.ChunkBoundariesCarryNoMeaning : Prop :=
  ∀ (i : Instr) (s t u : State) (m : PNat), IoAllOk s → exec i s = .next t →
    exec i { s with cfg := { s.cfg with maxChunk := m } } = .next u →
    panelView u.trace = panelView t.trace ∧
      u = { t with cfg := { t.cfg with maxChunk := m }, trace := u.trace, io := u.io }

/-! ### DisplayProtocol (45_protocol.md) -/

/-- RESET (R133, R134): in any protocol state, STATE becomes RESETTING; with a reset line the line goes high, low, high
with the three waits, without one there is no event; nothing else changes. -/
def Obligations.ResetDrivesTheResetLine : Prop :=
  ∀ s : State, Accepted .reset s → IoAllOk s →
    ∃ t, exec .reset s = .next t ∧ t.proto = .resetting ∧
      (s.cfg.hasResetPin = true →
        t.trace = s.trace ++ [.pin .rst true, .delay s.cfg.tRst1, .pin .rst false, .delay s.cfg.tRst2,
          .pin .rst true, .delay s.cfg.tRst3] ∧ t.rstLevel = .high) ∧
      (s.cfg.hasResetPin = false → t.trace = s.trace ∧ t.rstLevel = s.rstLevel) ∧
      t = { s with err := .ok, proto := .resetting, trace := t.trace, rstLevel := t.rstLevel, io := t.io }

/-- INIT (R136): from RESETTING with every write ok it sends INIT_SEQ in order, each command followed by its delay if
there is one, and leaves READY; nothing else changes but the mode line. -/
def Obligations.InitSendsTheSequenceAndBecomesReady : Prop :=
  ∀ s : State, Accepted .init s → s.proto = .resetting → IoAllOk s →
    ∃ t, exec .init s = .next t ∧
      t.trace = s.trace ++ s.cfg.initSeq.flatMap (fun e =>
        commandEvents s.cfg e.cmd e.params ++ (if 0 < e.delayMs then [.delay e.delayMs] else [])) ∧
      (s.cfg.initSeq ≠ [] → t.dcLevel = Level.ofBool (!s.cfg.dcCmdLevel)) ∧
      (s.cfg.initSeq = [] → t.dcLevel = s.dcLevel) ∧
      t = { s with err := .ok, proto := .ready, trace := t.trace, dcLevel := t.dcLevel, io := t.io }

/-- R138: an INIT that ends in an I/O error leaves CONFIGURING, from which INIT faults STATE; no other operation
makes STATE CONFIGURING. -/
def Obligations.ConfiguringOnlyAfterAFailedInit : Prop :=
  (∀ s t : State, s.fault = false → s.faultCode = none → s.proto = .resetting → exec .init s = .next t →
    t.err = .ioError →
    t.proto = .configuring ∧ ∃ u, exec .init t = .next u ∧ u.fault = true ∧ u.faultCode = some .state) ∧
    ∀ (i : Instr) (s t : State), exec i s = .next t → t.proto = .configuring →
      s.proto = .configuring ∨ (i = .init ∧ t.err = .ioError)

/-- FLUSH with F = 1 (R141, R118): with every write ok it sends the full window and all 134400 bytes of cur, copies cur
into prev, updates the FPS sample and sets RESULT to 134400; nothing else changes. -/
def Obligations.ForcedFlushSendsTheWholeFrame : Prop :=
  ∀ s : State, Accepted (.flush true) s → s.proto = .ready → IoAllOk s →
    ∃ t, exec (.flush true) s = .next t ∧
      t.trace = s.trace ++ (windowEvents s.cfg 0 239 20 299 ++ dataEvents s.cfg (rawBytes s.cur 0 279)) ∧
      t.fpsElapsed = BitVec.ofNat 32 (elapsedSample s) ∧ t.dcLevel = Level.ofBool (!s.cfg.dcCmdLevel) ∧
      t = { s with
        err := .ok, result := 134400, prev := s.cur, fpsElapsed := t.fpsElapsed, lastMs := s.now,
        clock := { s.clock with draws := s.clock.draws.tail }, trace := t.trace, dcLevel := t.dcLevel, io := t.io }

/-- FLUSH with F = 0 on a dirty buffer (R141, R118): with every write ok it sends the rows from the first dirty one to
the last, and ends as a forced FLUSH does, with RESULT the bytes of those rows. -/
def Obligations.PartialFlushSendsTheDirtyRows : Prop :=
  ∀ (s : State) (top bottom : Fin HEIGHT), Accepted (.flush false) s → s.proto = .ready → IoAllOk s →
    RowDirty s.cur s.prev top → RowDirty s.cur s.prev bottom →
    (∀ y, RowDirty s.cur s.prev y → top ≤ y ∧ y ≤ bottom) →
    ∃ t, exec (.flush false) s = .next t ∧
      t.trace = s.trace ++ (windowEvents s.cfg 0 239 (top + 20) (bottom + 20) ++
        dataEvents s.cfg (rawBytes s.cur top bottom)) ∧
      t.fpsElapsed = BitVec.ofNat 32 (elapsedSample s) ∧ t.dcLevel = Level.ofBool (!s.cfg.dcCmdLevel) ∧
      t = { s with
        err := .ok, result := BitVec.ofNat 32 ((bottom - top + 1) * 480), prev := s.cur,
        fpsElapsed := t.fpsElapsed, lastMs := s.now, clock := { s.clock with draws := s.clock.draws.tail },
        trace := t.trace, dcLevel := t.dcLevel, io := t.io }

/-- FLUSH with F = 0 on a clean buffer (R141, R143): no event and RESULT 0, and still the copy and the FPS sample. -/
def Obligations.EmptyFlushStillCopies : Prop :=
  ∀ s : State, Accepted (.flush false) s → s.proto = .ready → (∀ y, ¬ RowDirty s.cur s.prev y) →
    exec (.flush false) s = .next { s with
      err := .ok, result := 0, prev := s.cur, fpsElapsed := BitVec.ofNat 32 (elapsedSample s), lastMs := s.now,
      clock := { s.clock with draws := s.clock.draws.tail } }

/-- R145: a FLUSH that ends in an I/O error leaves prev, the FPS sample, LAST_MS, RESULT, cur and STATE as they were, so
that a repeated FLUSH scans the same region. -/
def Obligations.FailedFlushKeepsTheSnapshot : Prop :=
  ∀ (f : Bool) (s t : State), s.fault = false → exec (.flush f) s = .next t → t.err = .ioError →
    t.prev = s.prev ∧ t.fpsElapsed = s.fpsElapsed ∧ t.lastMs = s.lastMs ∧ t.result = s.result ∧ t.cur = s.cur ∧
      t.proto = s.proto ∧ scan t.cur t.prev = scan s.cur s.prev

/-- R144, R21: a successful FLUSH takes one draw of the time port, makes it LAST_MS and stores the time since the last
one, at least 1 and at most 0xFFFFFFFF; a FLUSH that ends in a fault or an I/O error and every other operation take no
draw and leave the sample. -/
def Obligations.OnlyFlushSamplesTheTime : Prop :=
  (∀ (f : Bool) (s t : State), s.fault = false → s.proto = .ready → exec (.flush f) s = .next t → t.err = .ok →
    t.fpsElapsed.toNat = min 0xFFFFFFFF (max 1 (s.now - s.lastMs)) ∧ 1 ≤ t.fpsElapsed.toNat ∧ t.lastMs = s.now ∧
      t.clock = { s.clock with draws := s.clock.draws.tail }) ∧
    (∀ (f : Bool) (s t : State), exec (.flush f) s = .next t → t.fault = true ∨ t.err = .ioError →
      t.fpsElapsed = s.fpsElapsed ∧ t.lastMs = s.lastMs ∧ t.clock = s.clock) ∧
    ∀ (i : Instr) (s t : State), (∀ f, i ≠ .flush f) → exec i s = .next t →
      t.fpsElapsed = s.fpsElapsed ∧ t.lastMs = s.lastMs ∧ t.clock = s.clock

/-- R146: after a successful FLUSH, whatever operations follow that write no cell of cur, a FLUSH with F = 0 emits no
event and sets RESULT to 0. -/
def Obligations.SecondFlushSendsNothing : Prop :=
  ∀ (f : Bool) (s t u v : State) (ops : List Instr), s.fault = false → s.proto = .ready →
    exec (.flush f) s = .next t → t.err = .ok → (∀ i ∈ ops, drawsCur i = false) → runOps ops t = some u →
    u.fault = false → u.proto = .ready → exec (.flush false) u = .next v →
    v.trace = u.trace ∧ v.result = 0 ∧ v.err = .ok

/-- R147: if rows 0 and 279 are both dirty, FLUSH with F = 0 and with F = 1 come to the same state, trace included, and
send 134400 bytes when they succeed. After FILL_RECT 0, 0, 240, 280, c the scan is (0, 279) exactly when some cell of
row 0 and some cell of row 279 of prev are not almost equal to c at tolerance 2. -/
def Obligations.FullAndPartialFlushAgree : Prop :=
  (∀ s : State, RowDirty s.cur s.prev 0 → RowDirty s.cur s.prev (Fin.last 279) →
    exec (.flush false) s = exec (.flush true) s) ∧
    (∀ s t : State, s.fault = false → s.proto = .ready → exec (.flush true) s = .next t → t.err = .ok →
      t.result = 134400) ∧
    ∀ (s t : State) (c : PackedColor), Accepted .fillRect s → s.arg1.value = 0 → s.arg2.value = 0x011800F0 →
      s.arg3.value.toNat % 65536 = c.toNat → exec .fillRect s = .next t →
      (scan t.cur t.prev = some (0, Fin.last 279) ↔
        (∃ x, almostEq c (s.prev.cell x 0) 2 = false) ∧ ∃ x, almostEq c (s.prev.cell x (Fin.last 279)) 2 = false)

/-- R148: after a successful FLUSH prev = cur, cur is as it was, and either nothing was sent, RESULT is 0 and every row
was clean, or the window and the bytes of a row range of cur were sent, RESULT is their number and every row outside
it was clean. -/
def Obligations.FlushPostState : Prop :=
  ∀ (f : Bool) (s t : State), s.fault = false → s.proto = .ready → exec (.flush f) s = .next t → t.err = .ok →
    t.prev = t.cur ∧ t.cur = s.cur ∧
      ((f = false ∧ t.result = 0 ∧ t.trace = s.trace ∧ ∀ y, ¬ RowDirty s.cur s.prev y) ∨
        ∃ top bottom : Fin HEIGHT, top ≤ bottom ∧ t.result.toNat = (bottom - top + 1) * 480 ∧
          t.trace = s.trace ++ (windowEvents s.cfg 0 239 (top + 20) (bottom + 20) ++
            dataEvents s.cfg (rawBytes s.cur top bottom)) ∧
          (f = false → ∀ y, y < top ∨ bottom < y → ¬ RowDirty s.cur s.prev y) ∧
          (f = true → top = 0 ∧ bottom = Fin.last 279))

/-! ### The whole machine -/

/-- Every step keeps the invariant: FAULT and its code agree, the levels are those of the trace, no transfer is empty
or longer than MAX_CHUNK, no unwired reset line is driven, and an I/O error stands only behind its failing event. -/
def Obligations.EveryStepKeepsTheInvariant : Prop :=
  ∀ s t : State, BlockInv s → step s = .next t → BlockInv t

/-- The invariant holds after construction with any parameters, draws and environment, so also at reset. -/
def Obligations.ConstructionMeetsTheInvariant : Prop :=
  (∀ (p : Params) (curDraw prevDraw : Nat → PackedColor) (argDraw : Nat → Word) (now : Nat) (payload : PayloadPort)
    (source : SourcePort) (io : IoOracle) (clock : TimePort),
    BlockInv (State.constructed p curDraw prevDraw argDraw now payload source io clock)) ∧ BlockInv State.reset

/-- "The trace is never shortened" (00_scope.md R11): every step keeps it and at most adds to its end. -/
def Obligations.TraceOnlyGrows : Prop :=
  ∀ s t : State, step s = .next t → s.trace <+: t.trace

/-- R27: an accepted RESET makes STATE RESETTING; INIT from RESETTING makes it READY on success and leaves CONFIGURING
on an I/O error; nothing else changes it. The four states are 0, 1, 2, 3. -/
def Obligations.ProtocolTransitions : Prop :=
  [ProtoState.uninitialized, .resetting, .configuring, .ready].map ProtoState.code = [0, 1, 2, 3] ∧
    (∀ s t : State, s.fault = false → exec .reset s = .next t → t.proto = .resetting) ∧
    (∀ s t : State, s.fault = false → s.proto = .resetting → exec .init s = .next t →
      (t.err = .ok → t.proto = .ready) ∧ (t.err = .ioError → t.proto = .configuring)) ∧
    ∀ (i : Instr) (s t : State), exec i s = .next t → t.proto ≠ s.proto →
      i = .reset ∨ (i = .init ∧ s.proto = .resetting)

/-- R25: cur is written only by FILL_RECT, CLEAR and BLIT; prev only by FLUSH's copy; SEND_RAW_REGION writes neither. -/
def Obligations.WhoWritesTheGrids : Prop :=
  (∀ (i : Instr) (s t : State), exec i s = .next t → drawsCur i = false → t.cur = s.cur) ∧
    (∀ (i : Instr) (s t : State), exec i s = .next t → (∀ f, i ≠ .flush f) → t.prev = s.prev) ∧
    (∀ (f : Bool) (s t : State), exec (.flush f) s = .next t → t.prev = s.prev ∨ t.prev = s.cur) ∧
    ∀ s t : State, exec .sendRawRegion s = .next t → t.cur = s.cur ∧ t.prev = s.prev

/-- R20: only CVT_PACK, CVT_UNPACK, ALMOST_EQ, SCAN and FLUSH write RESULT, and none that ends in a fault or an I/O
error does; at reset it is 0. -/
def Obligations.WhoWritesTheResult : Prop :=
  (∀ (i : Instr) (s t : State), exec i s = .next t → definesResult i = false → t.result = s.result) ∧
    (∀ (i : Instr) (s t : State), exec i s = .next t → t.fault = true → t.result = s.result) ∧
    (∀ (i : Instr) (s t : State), s.fault = false → exec i s = .next t → t.err = .ioError → t.result = s.result) ∧
    State.reset.result = 0

/-- No operation changes the construction parameters, the operand registers, the ports or the host's side; one that
does no I/O changes neither trace, lines nor oracle (R18, R22, R55, R61). -/
def Obligations.WhatNoOperationChanges : Prop :=
  ∀ (i : Instr) (s t : State), exec i s = .next t →
    t.cfg = s.cfg ∧ t.arg1 = s.arg1 ∧ t.arg2 = s.arg2 ∧ t.arg3 = s.arg3 ∧ t.payload = s.payload ∧
      t.source = s.source ∧ t.host = s.host ∧ t.position = s.position ∧ t.readLog = s.readLog ∧
      (emitsEvents i = false →
        t.trace = s.trace ∧ t.dcLevel = s.dcLevel ∧ t.rstLevel = s.rstLevel ∧ t.io = s.io)

/-- R72, R76: bits of an operand register that the operation's layout does not name have no effect. Two states that
agree on the named bits and the written flags come to states that differ only in those registers. -/
def Obligations.UnnamedOperandBitsHaveNoEffect : Prop :=
  ∀ (i : Instr) (s t u : State) (v1 v2 v3 : Word),
    v1 &&& operandMask i .arg1 = s.arg1.value &&& operandMask i .arg1 →
    v2 &&& operandMask i .arg2 = s.arg2.value &&& operandMask i .arg2 →
    v3 &&& operandMask i .arg3 = s.arg3.value &&& operandMask i .arg3 →
    exec i s = .next t →
    exec i { s with
      arg1 := ⟨v1, s.arg1.written⟩, arg2 := ⟨v2, s.arg2.written⟩, arg3 := ⟨v3, s.arg3.written⟩ } = .next u →
    u = { t with
      arg1 := ⟨v1, s.arg1.written⟩, arg2 := ⟨v2, s.arg2.written⟩, arg3 := ⟨v3, s.arg3.written⟩ }

/-- R32: with draws of the time port that do not decrease, every step leaves such draws. -/
def Obligations.EveryStepKeepsTheClockLaw : Prop :=
  ∀ s t : State, ClockLaw s → step s = .next t → ClockLaw t

/-! ### The assembler (30_encoding.md) -/

/-- R78: the expansions of the pseudo-instructions; FLUSH.FULL is FLUSH's encoding with F = 1. -/
def Obligations.PseudoInstructionsExpand : Prop :=
  (∀ x y c, assemble (.setPix x y c) = assemble (.fillRect x y 1 1 c)) ∧
    (∀ y h c, assemble (.fillRows y h c) = assemble (.fillRect 0 y 240 h c)) ∧
    (∀ cb, assemble (.sendCmd0 cb) = assemble (.sendCmd cb 0)) ∧
    assemble .flushFull = [.write 32 0x00 0x00000131]

/-- R77, R78: the host events of `SETPIX x, y, c`, served one by one on a block that is not halted, write the colour
into cell (x, y) and no other. -/
def Obligations.AssembledSetPixWritesOneCell : Prop :=
  ∀ (s : State) (x : Fin WIDTH) (y : Fin HEIGHT) (c : PackedColor) (rest : List HostEvent), s.fault = false →
    s.host = assemble (.setPix (BitVec.ofNat 16 x) (BitVec.ofNat 16 y) c) ++ rest →
    ∃ t, Host.Core.run core 4 s = .next t ∧ t.host = rest ∧ t.fault = false ∧ t.cur.cell x y = c ∧
      ∀ (x' : Fin WIDTH) (y' : Fin HEIGHT), (x' ≠ x ∨ y' ≠ y) → t.cur.cell x' y' = s.cur.cell x' y'

/-- R186: the events of an assembled operation, served one by one on a block that has not faulted, never end in
UNWRITTEN_ARG. A raw WRITE line is no assembled operation. -/
def Obligations.AssembledOperationWritesItsOperands : Prop :=
  ∀ (s t : State) (l : AsmLine) (rest : List HostEvent), (∀ off v, l ≠ .writeReg off v) → s.fault = false →
    s.faultCode = none → s.host = assemble l ++ rest → Host.Core.run core (assemble l).length s = .next t →
    t.faultCode ≠ some .unwrittenArg
end

