-- ==== Sys2Proof/Laws/Color.lean ====
section
/-! SUPPORT. The colour functions of 40_color.md and the field functions of Operands.lean, on naturals. -/

namespace Sys2Proof.Machine

/-! ### Fields and byte order (00_scope.md R8, R10) -/

theorem append_toNat {m n : Nat} (a : BitVec m) (b : BitVec n) : (a ++ b).toNat = a.toNat * 2 ^ n + b.toNat := by
  rw [BitVec.toNat_append, Nat.shiftLeft_eq, Nat.mul_comm, Nat.two_pow_add_eq_or_of_lt b.isLt]

theorem field_toNat {n : Nat} (lo w : Nat) (a : BitVec n) :
    (a.extractLsb' lo w).toNat = a.toNat / 2 ^ lo % 2 ^ w := by
  rw [BitVec.extractLsb'_toNat, Nat.shiftRight_eq_div_pow]

theorem loHalf_toNat (a : Word) : (loHalf a).toNat = a.toNat % 65536 := by
  rw [loHalf, field_toNat]; omega

theorem hiHalf_toNat (a : Word) : (hiHalf a).toNat = a.toNat / 65536 := by
  have := a.isLt
  rw [hiHalf, field_toNat]; omega

theorem hi8_toNat (v : BitVec 16) : (hi8 v).toNat = v.toNat / 256 := by
  have := v.isLt
  rw [hi8, field_toNat]; omega

theorem lo8_toNat (v : BitVec 16) : (lo8 v).toNat = v.toNat % 256 := by
  rw [lo8, field_toNat]; omega

theorem swap16_toNat (v : BitVec 16) : (swap16 v).toNat = v.toNat % 256 * 256 + v.toNat / 256 := by
  rw [swap16, append_toNat, hi8_toNat, lo8_toNat]; rfl

@[simp] theorem swap16_swap16 (v : BitVec 16) : swap16 (swap16 v) = v := by
  have := v.isLt
  apply BitVec.eq_of_toNat_eq
  rw [swap16_toNat, swap16_toNat]; omega

/-! ### The three functions -/

/-- The natural form of a packed colour (R86): N = r5 : g6 : b5. -/
theorem fromChannels_natural (c : Rgb) :
    (swap16 (fromChannels c)).toNat = c.r.toNat / 8 * 2048 + c.g.toNat / 4 * 32 + c.b.toNat / 8 := by
  have := c.r.isLt
  have := c.g.isLt
  have := c.b.isLt
  rw [fromChannels, swap16_swap16, append_toNat, append_toNat, field_toNat, field_toNat, field_toNat]
  omega

/-- `Expand5` (R88): 8q + 7, and 0 for 0. -/
theorem expand5_toNat (q : BitVec 5) : (expand5 q).toNat = if q.toNat = 0 then 0 else 8 * q.toNat + 7 := by
  revert q; decide

/-- `Expand6` (R88): 4q + 3, and 0 for 0. -/
theorem expand6_toNat (q : BitVec 6) : (expand6 q).toNat = if q.toNat = 0 then 0 else 4 * q.toNat + 3 := by
  revert q; decide

/-- The red group of a stored colour is N[15:11]. -/
theorem channels_r_toNat (c : PackedColor) :
    (channels c).r.toNat =
      if (swap16 c).toNat / 2048 = 0 then 0 else 8 * ((swap16 c).toNat / 2048) + 7 := by
  have : (swap16 c).toNat / 2 ^ 11 % 2 ^ 5 = (swap16 c).toNat / 2048 := by have := (swap16 c).isLt; omega
  simp only [channels, expand5_toNat, field_toNat, this]

/-- The green group of a stored colour is N[10:5]. -/
theorem channels_g_toNat (c : PackedColor) :
    (channels c).g.toNat =
      if (swap16 c).toNat / 32 % 64 = 0 then 0 else 4 * ((swap16 c).toNat / 32 % 64) + 3 := by
  have : (swap16 c).toNat / 2 ^ 5 % 2 ^ 6 = (swap16 c).toNat / 32 % 64 := by omega
  simp only [channels, expand6_toNat, field_toNat, this]

/-- The blue group of a stored colour is N[4:0]. -/
theorem channels_b_toNat (c : PackedColor) :
    (channels c).b.toNat =
      if (swap16 c).toNat % 32 = 0 then 0 else 8 * ((swap16 c).toNat % 32) + 7 := by
  have : (swap16 c).toNat / 2 ^ 0 % 2 ^ 5 = (swap16 c).toNat % 32 := by omega
  simp only [channels, expand5_toNat, field_toNat, this]

/-- The test of R90 as three conditions. -/
theorem almostEq_iff (a b : PackedColor) (t : Nat) :
    almostEq a b t = true ↔
      a = b ∨
        (channelDistance (channels a).r (channels b).r ≤ t * 8 ∧
          channelDistance (channels a).g (channels b).g ≤ t * 4 ∧
            channelDistance (channels a).b (channels b).b ≤ t * 8) := by
  simp [almostEq, and_assoc]

end Sys2Proof.Machine
end

