-- ==== Sys2Proof/Laws/Decode.lean ====
section
/-! SUPPORT. The fields of a command word (30_encoding.md R66) on naturals, and the row that covers a word. -/

namespace Sys2Proof.Laws

open Machine

theorem opcField_toNat (w : Word) : (opcField w).toNat = w.toNat % 256 := by
  rw [opcField, field_toNat]; norm_num

theorem forceField_toNat (w : Word) : (forceField w).toNat = w.toNat / 256 % 2 := by
  rw [forceField, BitVec.getLsbD, Nat.testBit_eq_decide_div_mod_eq, show (2 : Nat) ^ 8 = 256 from by norm_num]
  have : w.toNat / 256 % 2 < 2 := Nat.mod_lt _ (by decide)
  generalize w.toNat / 256 % 2 = x at *
  interval_cases x <;> rfl

theorem rsv0Field_toNat (w : Word) : (rsv0Field w).toNat = w.toNat / 512 % 128 := by
  rw [rsv0Field, field_toNat]; norm_num

theorem cbField_toNat (w : Word) : (cbField w).toNat = w.toNat / 65536 % 256 := by
  rw [cbField, field_toNat]; norm_num

theorem rsv1Field_toNat (w : Word) : (rsv1Field w).toNat = w.toNat / 16777216 := by
  have := w.isLt
  rw [rsv1Field, field_toNat]; norm_num at *; omega

/-- A number of 32 bits is the sum of its five fields. -/
theorem word_split (n : Nat) :
    n = n % 256 + 256 * (n / 256 % 2) + 512 * (n / 512 % 128) + 65536 * (n / 65536 % 256) +
      16777216 * (n / 16777216) := by
  have h1 := Nat.mod_add_div n 256
  have h2 := Nat.mod_add_div (n / 256) 2
  have h3 := Nat.mod_add_div (n / 512) 128
  have h4 := Nat.mod_add_div (n / 65536) 256
  rw [Nat.div_div_eq_div_mul] at h2 h3 h4
  generalize n / 256 = a at *
  omega

/-- The five fields of R66 determine the word: no bit is outside them. -/
theorem word_ext {a b : Word} (h0 : opcField a = opcField b) (h1 : forceField a = forceField b)
    (h2 : rsv0Field a = rsv0Field b) (h3 : cbField a = cbField b) (h4 : rsv1Field a = rsv1Field b) : a = b := by
  apply BitVec.eq_of_toNat_eq
  rw [word_split a.toNat, word_split b.toNat, ← opcField_toNat, ← opcField_toNat, ← forceField_toNat,
    ← forceField_toNat, ← rsv0Field_toNat, ← rsv0Field_toNat, ← cbField_toNat, ← cbField_toNat, ← rsv1Field_toNat,
    ← rsv1Field_toNat, h0, h1, h2, h3, h4]

/-- A word a row covers has that row's operation code. -/
theorem opcField_of_covers {r : Row} (hr : r ∈ opcodeTable) {w : Word} (h : r.covers w = true) :
    opcField r.pattern = opcField w := by
  have h1 : w &&& r.mask = r.pattern := by simpa [Row.covers] using h
  have h2 : opcField (w &&& r.mask) = opcField w &&& opcField r.mask := by simp [opcField, BitVec.extractLsb'_and]
  have h3 : opcField r.mask = 0xFF := by clear h h1 h2; revert r; decide
  rw [← h1, h2, h3]
  generalize opcField w = x
  revert x; decide

/-- Everything the decoder can answer. -/
theorem decode_cases (w : Word) :
    (∃ r ∈ opcodeTable, r.covers w = true ∧ decode w = .ok (r.build w)) ∨
      ((∀ r ∈ opcodeTable, r.covers w = false) ∧
        decode w = .error (if opcodeKnown w then .reservedField else .illegalOpcode)) := by
  unfold decode
  cases hf : opcodeTable.find? (fun r => r.covers w) with
  | some r =>
    exact .inl ⟨r, List.mem_of_find?_eq_some hf, List.find?_some (p := fun r : Row => r.covers w) hf, rfl⟩
  | none => exact .inr ⟨fun r hr => by simpa using List.find?_eq_none.mp hf r hr, rfl⟩

end Sys2Proof.Laws
end

