-- ==== Sys2Proof/Laws/State.lean ====
section
/-! SUPPORT. One lemma per field and named write of State (Flags.lean, Ops.lean, HostInterface.lean): what the
field holds after the write. With these no proof unfolds a record update. -/

namespace Sys2Proof.Machine

variable (s : State)

/-! `clearErr` -/

@[simp] theorem clearErr_cfg : s.clearErr.cfg = s.cfg := rfl
@[simp] theorem clearErr_arg1 : s.clearErr.arg1 = s.arg1 := rfl
@[simp] theorem clearErr_arg2 : s.clearErr.arg2 = s.arg2 := rfl
@[simp] theorem clearErr_arg3 : s.clearErr.arg3 = s.arg3 := rfl
@[simp] theorem clearErr_proto : s.clearErr.proto = s.proto := rfl
@[simp] theorem clearErr_fault : s.clearErr.fault = s.fault := rfl
@[simp] theorem clearErr_faultCode : s.clearErr.faultCode = s.faultCode := rfl
@[simp] theorem clearErr_err : s.clearErr.err = .ok := rfl
@[simp] theorem clearErr_result : s.clearErr.result = s.result := rfl
@[simp] theorem clearErr_fpsElapsed : s.clearErr.fpsElapsed = s.fpsElapsed := rfl
@[simp] theorem clearErr_cur : s.clearErr.cur = s.cur := rfl
@[simp] theorem clearErr_prev : s.clearErr.prev = s.prev := rfl
@[simp] theorem clearErr_lastMs : s.clearErr.lastMs = s.lastMs := rfl
@[simp] theorem clearErr_dcLevel : s.clearErr.dcLevel = s.dcLevel := rfl
@[simp] theorem clearErr_rstLevel : s.clearErr.rstLevel = s.rstLevel := rfl
@[simp] theorem clearErr_trace : s.clearErr.trace = s.trace := rfl
@[simp] theorem clearErr_payload : s.clearErr.payload = s.payload := rfl
@[simp] theorem clearErr_source : s.clearErr.source = s.source := rfl
@[simp] theorem clearErr_io : s.clearErr.io = s.io := rfl
@[simp] theorem clearErr_clock : s.clearErr.clock = s.clock := rfl
@[simp] theorem clearErr_host : s.clearErr.host = s.host := rfl
@[simp] theorem clearErr_position : s.clearErr.position = s.position := rfl
@[simp] theorem clearErr_readLog : s.clearErr.readLog = s.readLog := rfl

/-! `setIoError` -/

@[simp] theorem setIoError_cfg : s.setIoError.cfg = s.cfg := rfl
@[simp] theorem setIoError_arg1 : s.setIoError.arg1 = s.arg1 := rfl
@[simp] theorem setIoError_arg2 : s.setIoError.arg2 = s.arg2 := rfl
@[simp] theorem setIoError_arg3 : s.setIoError.arg3 = s.arg3 := rfl
@[simp] theorem setIoError_proto : s.setIoError.proto = s.proto := rfl
@[simp] theorem setIoError_fault : s.setIoError.fault = s.fault := rfl
@[simp] theorem setIoError_faultCode : s.setIoError.faultCode = s.faultCode := rfl
@[simp] theorem setIoError_err : s.setIoError.err = .ioError := rfl
@[simp] theorem setIoError_result : s.setIoError.result = s.result := rfl
@[simp] theorem setIoError_fpsElapsed : s.setIoError.fpsElapsed = s.fpsElapsed := rfl
@[simp] theorem setIoError_cur : s.setIoError.cur = s.cur := rfl
@[simp] theorem setIoError_prev : s.setIoError.prev = s.prev := rfl
@[simp] theorem setIoError_lastMs : s.setIoError.lastMs = s.lastMs := rfl
@[simp] theorem setIoError_dcLevel : s.setIoError.dcLevel = s.dcLevel := rfl
@[simp] theorem setIoError_rstLevel : s.setIoError.rstLevel = s.rstLevel := rfl
@[simp] theorem setIoError_trace : s.setIoError.trace = s.trace := rfl
@[simp] theorem setIoError_payload : s.setIoError.payload = s.payload := rfl
@[simp] theorem setIoError_source : s.setIoError.source = s.source := rfl
@[simp] theorem setIoError_io : s.setIoError.io = s.io := rfl
@[simp] theorem setIoError_clock : s.setIoError.clock = s.clock := rfl
@[simp] theorem setIoError_host : s.setIoError.host = s.host := rfl
@[simp] theorem setIoError_position : s.setIoError.position = s.position := rfl
@[simp] theorem setIoError_readLog : s.setIoError.readLog = s.readLog := rfl

/-! `setResult` -/

@[simp] theorem setResult_cfg (v : Word) : (s.setResult v).cfg = s.cfg := rfl
@[simp] theorem setResult_arg1 (v : Word) : (s.setResult v).arg1 = s.arg1 := rfl
@[simp] theorem setResult_arg2 (v : Word) : (s.setResult v).arg2 = s.arg2 := rfl
@[simp] theorem setResult_arg3 (v : Word) : (s.setResult v).arg3 = s.arg3 := rfl
@[simp] theorem setResult_proto (v : Word) : (s.setResult v).proto = s.proto := rfl
@[simp] theorem setResult_fault (v : Word) : (s.setResult v).fault = s.fault := rfl
@[simp] theorem setResult_faultCode (v : Word) : (s.setResult v).faultCode = s.faultCode := rfl
@[simp] theorem setResult_err (v : Word) : (s.setResult v).err = s.err := rfl
@[simp] theorem setResult_result (v : Word) : (s.setResult v).result = v := rfl
@[simp] theorem setResult_fpsElapsed (v : Word) : (s.setResult v).fpsElapsed = s.fpsElapsed := rfl
@[simp] theorem setResult_cur (v : Word) : (s.setResult v).cur = s.cur := rfl
@[simp] theorem setResult_prev (v : Word) : (s.setResult v).prev = s.prev := rfl
@[simp] theorem setResult_lastMs (v : Word) : (s.setResult v).lastMs = s.lastMs := rfl
@[simp] theorem setResult_dcLevel (v : Word) : (s.setResult v).dcLevel = s.dcLevel := rfl
@[simp] theorem setResult_rstLevel (v : Word) : (s.setResult v).rstLevel = s.rstLevel := rfl
@[simp] theorem setResult_trace (v : Word) : (s.setResult v).trace = s.trace := rfl
@[simp] theorem setResult_payload (v : Word) : (s.setResult v).payload = s.payload := rfl
@[simp] theorem setResult_source (v : Word) : (s.setResult v).source = s.source := rfl
@[simp] theorem setResult_io (v : Word) : (s.setResult v).io = s.io := rfl
@[simp] theorem setResult_clock (v : Word) : (s.setResult v).clock = s.clock := rfl
@[simp] theorem setResult_host (v : Word) : (s.setResult v).host = s.host := rfl
@[simp] theorem setResult_position (v : Word) : (s.setResult v).position = s.position := rfl
@[simp] theorem setResult_readLog (v : Word) : (s.setResult v).readLog = s.readLog := rfl

/-! `setProto` -/

@[simp] theorem setProto_cfg (p : ProtoState) : (s.setProto p).cfg = s.cfg := rfl
@[simp] theorem setProto_arg1 (p : ProtoState) : (s.setProto p).arg1 = s.arg1 := rfl
@[simp] theorem setProto_arg2 (p : ProtoState) : (s.setProto p).arg2 = s.arg2 := rfl
@[simp] theorem setProto_arg3 (p : ProtoState) : (s.setProto p).arg3 = s.arg3 := rfl
@[simp] theorem setProto_proto (p : ProtoState) : (s.setProto p).proto = p := rfl
@[simp] theorem setProto_fault (p : ProtoState) : (s.setProto p).fault = s.fault := rfl
@[simp] theorem setProto_faultCode (p : ProtoState) : (s.setProto p).faultCode = s.faultCode := rfl
@[simp] theorem setProto_err (p : ProtoState) : (s.setProto p).err = s.err := rfl
@[simp] theorem setProto_result (p : ProtoState) : (s.setProto p).result = s.result := rfl
@[simp] theorem setProto_fpsElapsed (p : ProtoState) : (s.setProto p).fpsElapsed = s.fpsElapsed := rfl
@[simp] theorem setProto_cur (p : ProtoState) : (s.setProto p).cur = s.cur := rfl
@[simp] theorem setProto_prev (p : ProtoState) : (s.setProto p).prev = s.prev := rfl
@[simp] theorem setProto_lastMs (p : ProtoState) : (s.setProto p).lastMs = s.lastMs := rfl
@[simp] theorem setProto_dcLevel (p : ProtoState) : (s.setProto p).dcLevel = s.dcLevel := rfl
@[simp] theorem setProto_rstLevel (p : ProtoState) : (s.setProto p).rstLevel = s.rstLevel := rfl
@[simp] theorem setProto_trace (p : ProtoState) : (s.setProto p).trace = s.trace := rfl
@[simp] theorem setProto_payload (p : ProtoState) : (s.setProto p).payload = s.payload := rfl
@[simp] theorem setProto_source (p : ProtoState) : (s.setProto p).source = s.source := rfl
@[simp] theorem setProto_io (p : ProtoState) : (s.setProto p).io = s.io := rfl
@[simp] theorem setProto_clock (p : ProtoState) : (s.setProto p).clock = s.clock := rfl
@[simp] theorem setProto_host (p : ProtoState) : (s.setProto p).host = s.host := rfl
@[simp] theorem setProto_position (p : ProtoState) : (s.setProto p).position = s.position := rfl
@[simp] theorem setProto_readLog (p : ProtoState) : (s.setProto p).readLog = s.readLog := rfl

/-! `setCur` -/

@[simp] theorem setCur_cfg (g : Grid) : (s.setCur g).cfg = s.cfg := rfl
@[simp] theorem setCur_arg1 (g : Grid) : (s.setCur g).arg1 = s.arg1 := rfl
@[simp] theorem setCur_arg2 (g : Grid) : (s.setCur g).arg2 = s.arg2 := rfl
@[simp] theorem setCur_arg3 (g : Grid) : (s.setCur g).arg3 = s.arg3 := rfl
@[simp] theorem setCur_proto (g : Grid) : (s.setCur g).proto = s.proto := rfl
@[simp] theorem setCur_fault (g : Grid) : (s.setCur g).fault = s.fault := rfl
@[simp] theorem setCur_faultCode (g : Grid) : (s.setCur g).faultCode = s.faultCode := rfl
@[simp] theorem setCur_err (g : Grid) : (s.setCur g).err = s.err := rfl
@[simp] theorem setCur_result (g : Grid) : (s.setCur g).result = s.result := rfl
@[simp] theorem setCur_fpsElapsed (g : Grid) : (s.setCur g).fpsElapsed = s.fpsElapsed := rfl
@[simp] theorem setCur_cur (g : Grid) : (s.setCur g).cur = g := rfl
@[simp] theorem setCur_prev (g : Grid) : (s.setCur g).prev = s.prev := rfl
@[simp] theorem setCur_lastMs (g : Grid) : (s.setCur g).lastMs = s.lastMs := rfl
@[simp] theorem setCur_dcLevel (g : Grid) : (s.setCur g).dcLevel = s.dcLevel := rfl
@[simp] theorem setCur_rstLevel (g : Grid) : (s.setCur g).rstLevel = s.rstLevel := rfl
@[simp] theorem setCur_trace (g : Grid) : (s.setCur g).trace = s.trace := rfl
@[simp] theorem setCur_payload (g : Grid) : (s.setCur g).payload = s.payload := rfl
@[simp] theorem setCur_source (g : Grid) : (s.setCur g).source = s.source := rfl
@[simp] theorem setCur_io (g : Grid) : (s.setCur g).io = s.io := rfl
@[simp] theorem setCur_clock (g : Grid) : (s.setCur g).clock = s.clock := rfl
@[simp] theorem setCur_host (g : Grid) : (s.setCur g).host = s.host := rfl
@[simp] theorem setCur_position (g : Grid) : (s.setCur g).position = s.position := rfl
@[simp] theorem setCur_readLog (g : Grid) : (s.setCur g).readLog = s.readLog := rfl

/-! `copyCurToPrev` -/

@[simp] theorem copyCurToPrev_cfg : s.copyCurToPrev.cfg = s.cfg := rfl
@[simp] theorem copyCurToPrev_arg1 : s.copyCurToPrev.arg1 = s.arg1 := rfl
@[simp] theorem copyCurToPrev_arg2 : s.copyCurToPrev.arg2 = s.arg2 := rfl
@[simp] theorem copyCurToPrev_arg3 : s.copyCurToPrev.arg3 = s.arg3 := rfl
@[simp] theorem copyCurToPrev_proto : s.copyCurToPrev.proto = s.proto := rfl
@[simp] theorem copyCurToPrev_fault : s.copyCurToPrev.fault = s.fault := rfl
@[simp] theorem copyCurToPrev_faultCode : s.copyCurToPrev.faultCode = s.faultCode := rfl
@[simp] theorem copyCurToPrev_err : s.copyCurToPrev.err = s.err := rfl
@[simp] theorem copyCurToPrev_result : s.copyCurToPrev.result = s.result := rfl
@[simp] theorem copyCurToPrev_fpsElapsed : s.copyCurToPrev.fpsElapsed = s.fpsElapsed := rfl
@[simp] theorem copyCurToPrev_cur : s.copyCurToPrev.cur = s.cur := rfl
@[simp] theorem copyCurToPrev_prev : s.copyCurToPrev.prev = s.cur := rfl
@[simp] theorem copyCurToPrev_lastMs : s.copyCurToPrev.lastMs = s.lastMs := rfl
@[simp] theorem copyCurToPrev_dcLevel : s.copyCurToPrev.dcLevel = s.dcLevel := rfl
@[simp] theorem copyCurToPrev_rstLevel : s.copyCurToPrev.rstLevel = s.rstLevel := rfl
@[simp] theorem copyCurToPrev_trace : s.copyCurToPrev.trace = s.trace := rfl
@[simp] theorem copyCurToPrev_payload : s.copyCurToPrev.payload = s.payload := rfl
@[simp] theorem copyCurToPrev_source : s.copyCurToPrev.source = s.source := rfl
@[simp] theorem copyCurToPrev_io : s.copyCurToPrev.io = s.io := rfl
@[simp] theorem copyCurToPrev_clock : s.copyCurToPrev.clock = s.clock := rfl
@[simp] theorem copyCurToPrev_host : s.copyCurToPrev.host = s.host := rfl
@[simp] theorem copyCurToPrev_position : s.copyCurToPrev.position = s.position := rfl
@[simp] theorem copyCurToPrev_readLog : s.copyCurToPrev.readLog = s.readLog := rfl

/-! `emit` -/

@[simp] theorem emit_cfg (e : Event) : (s.emit e).cfg = s.cfg := rfl
@[simp] theorem emit_arg1 (e : Event) : (s.emit e).arg1 = s.arg1 := rfl
@[simp] theorem emit_arg2 (e : Event) : (s.emit e).arg2 = s.arg2 := rfl
@[simp] theorem emit_arg3 (e : Event) : (s.emit e).arg3 = s.arg3 := rfl
@[simp] theorem emit_proto (e : Event) : (s.emit e).proto = s.proto := rfl
@[simp] theorem emit_fault (e : Event) : (s.emit e).fault = s.fault := rfl
@[simp] theorem emit_faultCode (e : Event) : (s.emit e).faultCode = s.faultCode := rfl
@[simp] theorem emit_err (e : Event) : (s.emit e).err = s.err := rfl
@[simp] theorem emit_result (e : Event) : (s.emit e).result = s.result := rfl
@[simp] theorem emit_fpsElapsed (e : Event) : (s.emit e).fpsElapsed = s.fpsElapsed := rfl
@[simp] theorem emit_cur (e : Event) : (s.emit e).cur = s.cur := rfl
@[simp] theorem emit_prev (e : Event) : (s.emit e).prev = s.prev := rfl
@[simp] theorem emit_lastMs (e : Event) : (s.emit e).lastMs = s.lastMs := rfl
@[simp] theorem emit_dcLevel (e : Event) : (s.emit e).dcLevel = s.dcLevel := rfl
@[simp] theorem emit_rstLevel (e : Event) : (s.emit e).rstLevel = s.rstLevel := rfl
@[simp] theorem emit_trace (e : Event) : (s.emit e).trace = s.trace ++ [e] := rfl
@[simp] theorem emit_payload (e : Event) : (s.emit e).payload = s.payload := rfl
@[simp] theorem emit_source (e : Event) : (s.emit e).source = s.source := rfl
@[simp] theorem emit_io (e : Event) : (s.emit e).io = s.io := rfl
@[simp] theorem emit_clock (e : Event) : (s.emit e).clock = s.clock := rfl
@[simp] theorem emit_host (e : Event) : (s.emit e).host = s.host := rfl
@[simp] theorem emit_position (e : Event) : (s.emit e).position = s.position := rfl
@[simp] theorem emit_readLog (e : Event) : (s.emit e).readLog = s.readLog := rfl

/-! `drawIo` -/

@[simp] theorem drawIo_cfg : s.drawIo.cfg = s.cfg := rfl
@[simp] theorem drawIo_arg1 : s.drawIo.arg1 = s.arg1 := rfl
@[simp] theorem drawIo_arg2 : s.drawIo.arg2 = s.arg2 := rfl
@[simp] theorem drawIo_arg3 : s.drawIo.arg3 = s.arg3 := rfl
@[simp] theorem drawIo_proto : s.drawIo.proto = s.proto := rfl
@[simp] theorem drawIo_fault : s.drawIo.fault = s.fault := rfl
@[simp] theorem drawIo_faultCode : s.drawIo.faultCode = s.faultCode := rfl
@[simp] theorem drawIo_err : s.drawIo.err = s.err := rfl
@[simp] theorem drawIo_result : s.drawIo.result = s.result := rfl
@[simp] theorem drawIo_fpsElapsed : s.drawIo.fpsElapsed = s.fpsElapsed := rfl
@[simp] theorem drawIo_cur : s.drawIo.cur = s.cur := rfl
@[simp] theorem drawIo_prev : s.drawIo.prev = s.prev := rfl
@[simp] theorem drawIo_lastMs : s.drawIo.lastMs = s.lastMs := rfl
@[simp] theorem drawIo_dcLevel : s.drawIo.dcLevel = s.dcLevel := rfl
@[simp] theorem drawIo_rstLevel : s.drawIo.rstLevel = s.rstLevel := rfl
@[simp] theorem drawIo_trace : s.drawIo.trace = s.trace := rfl
@[simp] theorem drawIo_payload : s.drawIo.payload = s.payload := rfl
@[simp] theorem drawIo_source : s.drawIo.source = s.source := rfl
@[simp] theorem drawIo_io : s.drawIo.io = oracleRest s.io := rfl
@[simp] theorem drawIo_clock : s.drawIo.clock = s.clock := rfl
@[simp] theorem drawIo_host : s.drawIo.host = s.host := rfl
@[simp] theorem drawIo_position : s.drawIo.position = s.position := rfl
@[simp] theorem drawIo_readLog : s.drawIo.readLog = s.readLog := rfl

/-! `updateFps` -/

@[simp] theorem updateFps_cfg : s.updateFps.cfg = s.cfg := rfl
@[simp] theorem updateFps_arg1 : s.updateFps.arg1 = s.arg1 := rfl
@[simp] theorem updateFps_arg2 : s.updateFps.arg2 = s.arg2 := rfl
@[simp] theorem updateFps_arg3 : s.updateFps.arg3 = s.arg3 := rfl
@[simp] theorem updateFps_proto : s.updateFps.proto = s.proto := rfl
@[simp] theorem updateFps_fault : s.updateFps.fault = s.fault := rfl
@[simp] theorem updateFps_faultCode : s.updateFps.faultCode = s.faultCode := rfl
@[simp] theorem updateFps_err : s.updateFps.err = s.err := rfl
@[simp] theorem updateFps_result : s.updateFps.result = s.result := rfl
@[simp] theorem updateFps_fpsElapsed : s.updateFps.fpsElapsed = BitVec.ofNat 32 (min 0xFFFFFFFF (max FPS_FLOOR_MS (s.now - s.lastMs))) := rfl
@[simp] theorem updateFps_cur : s.updateFps.cur = s.cur := rfl
@[simp] theorem updateFps_prev : s.updateFps.prev = s.prev := rfl
@[simp] theorem updateFps_lastMs : s.updateFps.lastMs = s.now := rfl
@[simp] theorem updateFps_dcLevel : s.updateFps.dcLevel = s.dcLevel := rfl
@[simp] theorem updateFps_rstLevel : s.updateFps.rstLevel = s.rstLevel := rfl
@[simp] theorem updateFps_trace : s.updateFps.trace = s.trace := rfl
@[simp] theorem updateFps_payload : s.updateFps.payload = s.payload := rfl
@[simp] theorem updateFps_source : s.updateFps.source = s.source := rfl
@[simp] theorem updateFps_io : s.updateFps.io = s.io := rfl
@[simp] theorem updateFps_clock : s.updateFps.clock = { s.clock with draws := s.clock.draws.tail } := rfl
@[simp] theorem updateFps_host : s.updateFps.host = s.host := rfl
@[simp] theorem updateFps_position : s.updateFps.position = s.position := rfl
@[simp] theorem updateFps_readLog : s.updateFps.readLog = s.readLog := rfl

/-! `raiseFault` -/

@[simp] theorem raiseFault_cfg (c : FaultCode) : (raiseFault c s).cfg = s.cfg := rfl
@[simp] theorem raiseFault_arg1 (c : FaultCode) : (raiseFault c s).arg1 = s.arg1 := rfl
@[simp] theorem raiseFault_arg2 (c : FaultCode) : (raiseFault c s).arg2 = s.arg2 := rfl
@[simp] theorem raiseFault_arg3 (c : FaultCode) : (raiseFault c s).arg3 = s.arg3 := rfl
@[simp] theorem raiseFault_proto (c : FaultCode) : (raiseFault c s).proto = s.proto := rfl
@[simp] theorem raiseFault_fault (c : FaultCode) : (raiseFault c s).fault = true := rfl
@[simp] theorem raiseFault_faultCode (c : FaultCode) : (raiseFault c s).faultCode = if s.faultCode.isNone then some c else s.faultCode := rfl
@[simp] theorem raiseFault_err (c : FaultCode) : (raiseFault c s).err = s.err := rfl
@[simp] theorem raiseFault_result (c : FaultCode) : (raiseFault c s).result = s.result := rfl
@[simp] theorem raiseFault_fpsElapsed (c : FaultCode) : (raiseFault c s).fpsElapsed = s.fpsElapsed := rfl
@[simp] theorem raiseFault_cur (c : FaultCode) : (raiseFault c s).cur = s.cur := rfl
@[simp] theorem raiseFault_prev (c : FaultCode) : (raiseFault c s).prev = s.prev := rfl
@[simp] theorem raiseFault_lastMs (c : FaultCode) : (raiseFault c s).lastMs = s.lastMs := rfl
@[simp] theorem raiseFault_dcLevel (c : FaultCode) : (raiseFault c s).dcLevel = s.dcLevel := rfl
@[simp] theorem raiseFault_rstLevel (c : FaultCode) : (raiseFault c s).rstLevel = s.rstLevel := rfl
@[simp] theorem raiseFault_trace (c : FaultCode) : (raiseFault c s).trace = s.trace := rfl
@[simp] theorem raiseFault_payload (c : FaultCode) : (raiseFault c s).payload = s.payload := rfl
@[simp] theorem raiseFault_source (c : FaultCode) : (raiseFault c s).source = s.source := rfl
@[simp] theorem raiseFault_io (c : FaultCode) : (raiseFault c s).io = s.io := rfl
@[simp] theorem raiseFault_clock (c : FaultCode) : (raiseFault c s).clock = s.clock := rfl
@[simp] theorem raiseFault_host (c : FaultCode) : (raiseFault c s).host = s.host := rfl
@[simp] theorem raiseFault_position (c : FaultCode) : (raiseFault c s).position = s.position := rfl
@[simp] theorem raiseFault_readLog (c : FaultCode) : (raiseFault c s).readLog = s.readLog := rfl

/-! `takeEvent` -/

@[simp] theorem takeEvent_cfg (rest : List HostEvent) : (s.takeEvent rest).cfg = s.cfg := rfl
@[simp] theorem takeEvent_arg1 (rest : List HostEvent) : (s.takeEvent rest).arg1 = s.arg1 := rfl
@[simp] theorem takeEvent_arg2 (rest : List HostEvent) : (s.takeEvent rest).arg2 = s.arg2 := rfl
@[simp] theorem takeEvent_arg3 (rest : List HostEvent) : (s.takeEvent rest).arg3 = s.arg3 := rfl
@[simp] theorem takeEvent_proto (rest : List HostEvent) : (s.takeEvent rest).proto = s.proto := rfl
@[simp] theorem takeEvent_fault (rest : List HostEvent) : (s.takeEvent rest).fault = s.fault := rfl
@[simp] theorem takeEvent_faultCode (rest : List HostEvent) : (s.takeEvent rest).faultCode = s.faultCode := rfl
@[simp] theorem takeEvent_err (rest : List HostEvent) : (s.takeEvent rest).err = s.err := rfl
@[simp] theorem takeEvent_result (rest : List HostEvent) : (s.takeEvent rest).result = s.result := rfl
@[simp] theorem takeEvent_fpsElapsed (rest : List HostEvent) : (s.takeEvent rest).fpsElapsed = s.fpsElapsed := rfl
@[simp] theorem takeEvent_cur (rest : List HostEvent) : (s.takeEvent rest).cur = s.cur := rfl
@[simp] theorem takeEvent_prev (rest : List HostEvent) : (s.takeEvent rest).prev = s.prev := rfl
@[simp] theorem takeEvent_lastMs (rest : List HostEvent) : (s.takeEvent rest).lastMs = s.lastMs := rfl
@[simp] theorem takeEvent_dcLevel (rest : List HostEvent) : (s.takeEvent rest).dcLevel = s.dcLevel := rfl
@[simp] theorem takeEvent_rstLevel (rest : List HostEvent) : (s.takeEvent rest).rstLevel = s.rstLevel := rfl
@[simp] theorem takeEvent_trace (rest : List HostEvent) : (s.takeEvent rest).trace = s.trace := rfl
@[simp] theorem takeEvent_payload (rest : List HostEvent) : (s.takeEvent rest).payload = s.payload := rfl
@[simp] theorem takeEvent_source (rest : List HostEvent) : (s.takeEvent rest).source = s.source := rfl
@[simp] theorem takeEvent_io (rest : List HostEvent) : (s.takeEvent rest).io = s.io := rfl
@[simp] theorem takeEvent_clock (rest : List HostEvent) : (s.takeEvent rest).clock = s.clock := rfl
@[simp] theorem takeEvent_host (rest : List HostEvent) : (s.takeEvent rest).host = rest := rfl
@[simp] theorem takeEvent_position (rest : List HostEvent) : (s.takeEvent rest).position = s.position := rfl
@[simp] theorem takeEvent_readLog (rest : List HostEvent) : (s.takeEvent rest).readLog = s.readLog := rfl

/-! `countAccess` -/

@[simp] theorem countAccess_cfg : s.countAccess.cfg = s.cfg := rfl
@[simp] theorem countAccess_arg1 : s.countAccess.arg1 = s.arg1 := rfl
@[simp] theorem countAccess_arg2 : s.countAccess.arg2 = s.arg2 := rfl
@[simp] theorem countAccess_arg3 : s.countAccess.arg3 = s.arg3 := rfl
@[simp] theorem countAccess_proto : s.countAccess.proto = s.proto := rfl
@[simp] theorem countAccess_fault : s.countAccess.fault = s.fault := rfl
@[simp] theorem countAccess_faultCode : s.countAccess.faultCode = s.faultCode := rfl
@[simp] theorem countAccess_err : s.countAccess.err = s.err := rfl
@[simp] theorem countAccess_result : s.countAccess.result = s.result := rfl
@[simp] theorem countAccess_fpsElapsed : s.countAccess.fpsElapsed = s.fpsElapsed := rfl
@[simp] theorem countAccess_cur : s.countAccess.cur = s.cur := rfl
@[simp] theorem countAccess_prev : s.countAccess.prev = s.prev := rfl
@[simp] theorem countAccess_lastMs : s.countAccess.lastMs = s.lastMs := rfl
@[simp] theorem countAccess_dcLevel : s.countAccess.dcLevel = s.dcLevel := rfl
@[simp] theorem countAccess_rstLevel : s.countAccess.rstLevel = s.rstLevel := rfl
@[simp] theorem countAccess_trace : s.countAccess.trace = s.trace := rfl
@[simp] theorem countAccess_payload : s.countAccess.payload = s.payload := rfl
@[simp] theorem countAccess_source : s.countAccess.source = s.source := rfl
@[simp] theorem countAccess_io : s.countAccess.io = s.io := rfl
@[simp] theorem countAccess_clock : s.countAccess.clock = s.clock := rfl
@[simp] theorem countAccess_host : s.countAccess.host = s.host := rfl
@[simp] theorem countAccess_position : s.countAccess.position = s.position + 1 := rfl
@[simp] theorem countAccess_readLog : s.countAccess.readLog = s.readLog := rfl

/-! `logRead` -/

@[simp] theorem logRead_cfg (v : Word) : (s.logRead v).cfg = s.cfg := rfl
@[simp] theorem logRead_arg1 (v : Word) : (s.logRead v).arg1 = s.arg1 := rfl
@[simp] theorem logRead_arg2 (v : Word) : (s.logRead v).arg2 = s.arg2 := rfl
@[simp] theorem logRead_arg3 (v : Word) : (s.logRead v).arg3 = s.arg3 := rfl
@[simp] theorem logRead_proto (v : Word) : (s.logRead v).proto = s.proto := rfl
@[simp] theorem logRead_fault (v : Word) : (s.logRead v).fault = s.fault := rfl
@[simp] theorem logRead_faultCode (v : Word) : (s.logRead v).faultCode = s.faultCode := rfl
@[simp] theorem logRead_err (v : Word) : (s.logRead v).err = s.err := rfl
@[simp] theorem logRead_result (v : Word) : (s.logRead v).result = s.result := rfl
@[simp] theorem logRead_fpsElapsed (v : Word) : (s.logRead v).fpsElapsed = s.fpsElapsed := rfl
@[simp] theorem logRead_cur (v : Word) : (s.logRead v).cur = s.cur := rfl
@[simp] theorem logRead_prev (v : Word) : (s.logRead v).prev = s.prev := rfl
@[simp] theorem logRead_lastMs (v : Word) : (s.logRead v).lastMs = s.lastMs := rfl
@[simp] theorem logRead_dcLevel (v : Word) : (s.logRead v).dcLevel = s.dcLevel := rfl
@[simp] theorem logRead_rstLevel (v : Word) : (s.logRead v).rstLevel = s.rstLevel := rfl
@[simp] theorem logRead_trace (v : Word) : (s.logRead v).trace = s.trace := rfl
@[simp] theorem logRead_payload (v : Word) : (s.logRead v).payload = s.payload := rfl
@[simp] theorem logRead_source (v : Word) : (s.logRead v).source = s.source := rfl
@[simp] theorem logRead_io (v : Word) : (s.logRead v).io = s.io := rfl
@[simp] theorem logRead_clock (v : Word) : (s.logRead v).clock = s.clock := rfl
@[simp] theorem logRead_host (v : Word) : (s.logRead v).host = s.host := rfl
@[simp] theorem logRead_position (v : Word) : (s.logRead v).position = s.position := rfl
@[simp] theorem logRead_readLog (v : Word) : (s.logRead v).readLog = s.readLog ++ [v] := rfl

/-! `setPayload` -/

@[simp] theorem setPayload_cfg (p : PayloadPort) : (s.setPayload p).cfg = s.cfg := rfl
@[simp] theorem setPayload_arg1 (p : PayloadPort) : (s.setPayload p).arg1 = s.arg1 := rfl
@[simp] theorem setPayload_arg2 (p : PayloadPort) : (s.setPayload p).arg2 = s.arg2 := rfl
@[simp] theorem setPayload_arg3 (p : PayloadPort) : (s.setPayload p).arg3 = s.arg3 := rfl
@[simp] theorem setPayload_proto (p : PayloadPort) : (s.setPayload p).proto = s.proto := rfl
@[simp] theorem setPayload_fault (p : PayloadPort) : (s.setPayload p).fault = s.fault := rfl
@[simp] theorem setPayload_faultCode (p : PayloadPort) : (s.setPayload p).faultCode = s.faultCode := rfl
@[simp] theorem setPayload_err (p : PayloadPort) : (s.setPayload p).err = s.err := rfl
@[simp] theorem setPayload_result (p : PayloadPort) : (s.setPayload p).result = s.result := rfl
@[simp] theorem setPayload_fpsElapsed (p : PayloadPort) : (s.setPayload p).fpsElapsed = s.fpsElapsed := rfl
@[simp] theorem setPayload_cur (p : PayloadPort) : (s.setPayload p).cur = s.cur := rfl
@[simp] theorem setPayload_prev (p : PayloadPort) : (s.setPayload p).prev = s.prev := rfl
@[simp] theorem setPayload_lastMs (p : PayloadPort) : (s.setPayload p).lastMs = s.lastMs := rfl
@[simp] theorem setPayload_dcLevel (p : PayloadPort) : (s.setPayload p).dcLevel = s.dcLevel := rfl
@[simp] theorem setPayload_rstLevel (p : PayloadPort) : (s.setPayload p).rstLevel = s.rstLevel := rfl
@[simp] theorem setPayload_trace (p : PayloadPort) : (s.setPayload p).trace = s.trace := rfl
@[simp] theorem setPayload_payload (p : PayloadPort) : (s.setPayload p).payload = p := rfl
@[simp] theorem setPayload_source (p : PayloadPort) : (s.setPayload p).source = s.source := rfl
@[simp] theorem setPayload_io (p : PayloadPort) : (s.setPayload p).io = s.io := rfl
@[simp] theorem setPayload_clock (p : PayloadPort) : (s.setPayload p).clock = s.clock := rfl
@[simp] theorem setPayload_host (p : PayloadPort) : (s.setPayload p).host = s.host := rfl
@[simp] theorem setPayload_position (p : PayloadPort) : (s.setPayload p).position = s.position := rfl
@[simp] theorem setPayload_readLog (p : PayloadPort) : (s.setPayload p).readLog = s.readLog := rfl

/-! `setSource` -/

@[simp] theorem setSource_cfg (p : SourcePort) : (s.setSource p).cfg = s.cfg := rfl
@[simp] theorem setSource_arg1 (p : SourcePort) : (s.setSource p).arg1 = s.arg1 := rfl
@[simp] theorem setSource_arg2 (p : SourcePort) : (s.setSource p).arg2 = s.arg2 := rfl
@[simp] theorem setSource_arg3 (p : SourcePort) : (s.setSource p).arg3 = s.arg3 := rfl
@[simp] theorem setSource_proto (p : SourcePort) : (s.setSource p).proto = s.proto := rfl
@[simp] theorem setSource_fault (p : SourcePort) : (s.setSource p).fault = s.fault := rfl
@[simp] theorem setSource_faultCode (p : SourcePort) : (s.setSource p).faultCode = s.faultCode := rfl
@[simp] theorem setSource_err (p : SourcePort) : (s.setSource p).err = s.err := rfl
@[simp] theorem setSource_result (p : SourcePort) : (s.setSource p).result = s.result := rfl
@[simp] theorem setSource_fpsElapsed (p : SourcePort) : (s.setSource p).fpsElapsed = s.fpsElapsed := rfl
@[simp] theorem setSource_cur (p : SourcePort) : (s.setSource p).cur = s.cur := rfl
@[simp] theorem setSource_prev (p : SourcePort) : (s.setSource p).prev = s.prev := rfl
@[simp] theorem setSource_lastMs (p : SourcePort) : (s.setSource p).lastMs = s.lastMs := rfl
@[simp] theorem setSource_dcLevel (p : SourcePort) : (s.setSource p).dcLevel = s.dcLevel := rfl
@[simp] theorem setSource_rstLevel (p : SourcePort) : (s.setSource p).rstLevel = s.rstLevel := rfl
@[simp] theorem setSource_trace (p : SourcePort) : (s.setSource p).trace = s.trace := rfl
@[simp] theorem setSource_payload (p : SourcePort) : (s.setSource p).payload = s.payload := rfl
@[simp] theorem setSource_source (p : SourcePort) : (s.setSource p).source = p := rfl
@[simp] theorem setSource_io (p : SourcePort) : (s.setSource p).io = s.io := rfl
@[simp] theorem setSource_clock (p : SourcePort) : (s.setSource p).clock = s.clock := rfl
@[simp] theorem setSource_host (p : SourcePort) : (s.setSource p).host = s.host := rfl
@[simp] theorem setSource_position (p : SourcePort) : (s.setSource p).position = s.position := rfl
@[simp] theorem setSource_readLog (p : SourcePort) : (s.setSource p).readLog = s.readLog := rfl

/-! `setLevel` -/

@[simp] theorem setLevel_dc_dcLevel (l : Level) : (s.setLevel .dc l).dcLevel = l := rfl
@[simp] theorem setLevel_dc_rstLevel (l : Level) : (s.setLevel .dc l).rstLevel = s.rstLevel := rfl
@[simp] theorem setLevel_rst_dcLevel (l : Level) : (s.setLevel .rst l).dcLevel = s.dcLevel := rfl
@[simp] theorem setLevel_rst_rstLevel (l : Level) : (s.setLevel .rst l).rstLevel = l := rfl
@[simp] theorem setLevel_cfg (pin : Pin) (l : Level) : (s.setLevel pin l).cfg = s.cfg := by cases pin <;> rfl
@[simp] theorem setLevel_arg1 (pin : Pin) (l : Level) : (s.setLevel pin l).arg1 = s.arg1 := by cases pin <;> rfl
@[simp] theorem setLevel_arg2 (pin : Pin) (l : Level) : (s.setLevel pin l).arg2 = s.arg2 := by cases pin <;> rfl
@[simp] theorem setLevel_arg3 (pin : Pin) (l : Level) : (s.setLevel pin l).arg3 = s.arg3 := by cases pin <;> rfl
@[simp] theorem setLevel_proto (pin : Pin) (l : Level) : (s.setLevel pin l).proto = s.proto := by cases pin <;> rfl
@[simp] theorem setLevel_fault (pin : Pin) (l : Level) : (s.setLevel pin l).fault = s.fault := by cases pin <;> rfl
@[simp] theorem setLevel_faultCode (pin : Pin) (l : Level) : (s.setLevel pin l).faultCode = s.faultCode := by cases pin <;> rfl
@[simp] theorem setLevel_err (pin : Pin) (l : Level) : (s.setLevel pin l).err = s.err := by cases pin <;> rfl
@[simp] theorem setLevel_result (pin : Pin) (l : Level) : (s.setLevel pin l).result = s.result := by cases pin <;> rfl
@[simp] theorem setLevel_fpsElapsed (pin : Pin) (l : Level) : (s.setLevel pin l).fpsElapsed = s.fpsElapsed := by cases pin <;> rfl
@[simp] theorem setLevel_cur (pin : Pin) (l : Level) : (s.setLevel pin l).cur = s.cur := by cases pin <;> rfl
@[simp] theorem setLevel_prev (pin : Pin) (l : Level) : (s.setLevel pin l).prev = s.prev := by cases pin <;> rfl
@[simp] theorem setLevel_lastMs (pin : Pin) (l : Level) : (s.setLevel pin l).lastMs = s.lastMs := by cases pin <;> rfl
@[simp] theorem setLevel_trace (pin : Pin) (l : Level) : (s.setLevel pin l).trace = s.trace := by cases pin <;> rfl
@[simp] theorem setLevel_payload (pin : Pin) (l : Level) : (s.setLevel pin l).payload = s.payload := by cases pin <;> rfl
@[simp] theorem setLevel_source (pin : Pin) (l : Level) : (s.setLevel pin l).source = s.source := by cases pin <;> rfl
@[simp] theorem setLevel_io (pin : Pin) (l : Level) : (s.setLevel pin l).io = s.io := by cases pin <;> rfl
@[simp] theorem setLevel_clock (pin : Pin) (l : Level) : (s.setLevel pin l).clock = s.clock := by cases pin <;> rfl
@[simp] theorem setLevel_host (pin : Pin) (l : Level) : (s.setLevel pin l).host = s.host := by cases pin <;> rfl
@[simp] theorem setLevel_position (pin : Pin) (l : Level) : (s.setLevel pin l).position = s.position := by cases pin <;> rfl
@[simp] theorem setLevel_readLog (pin : Pin) (l : Level) : (s.setLevel pin l).readLog = s.readLog := by cases pin <;> rfl

/-! `setArg` -/

@[simp] theorem setArg_arg1_arg1 (v : Word) : (s.setArg .arg1 v).arg1 = { value := v, written := true } := rfl
@[simp] theorem setArg_arg1_arg2 (v : Word) : (s.setArg .arg1 v).arg2 = s.arg2 := rfl
@[simp] theorem setArg_arg1_arg3 (v : Word) : (s.setArg .arg1 v).arg3 = s.arg3 := rfl
@[simp] theorem setArg_arg2_arg1 (v : Word) : (s.setArg .arg2 v).arg1 = s.arg1 := rfl
@[simp] theorem setArg_arg2_arg2 (v : Word) : (s.setArg .arg2 v).arg2 = { value := v, written := true } := rfl
@[simp] theorem setArg_arg2_arg3 (v : Word) : (s.setArg .arg2 v).arg3 = s.arg3 := rfl
@[simp] theorem setArg_arg3_arg1 (v : Word) : (s.setArg .arg3 v).arg1 = s.arg1 := rfl
@[simp] theorem setArg_arg3_arg2 (v : Word) : (s.setArg .arg3 v).arg2 = s.arg2 := rfl
@[simp] theorem setArg_arg3_arg3 (v : Word) : (s.setArg .arg3 v).arg3 = { value := v, written := true } := rfl
@[simp] theorem setArg_cfg (k : ArgName) (v : Word) : (s.setArg k v).cfg = s.cfg := by cases k <;> rfl
@[simp] theorem setArg_proto (k : ArgName) (v : Word) : (s.setArg k v).proto = s.proto := by cases k <;> rfl
@[simp] theorem setArg_fault (k : ArgName) (v : Word) : (s.setArg k v).fault = s.fault := by cases k <;> rfl
@[simp] theorem setArg_faultCode (k : ArgName) (v : Word) : (s.setArg k v).faultCode = s.faultCode := by cases k <;> rfl
@[simp] theorem setArg_err (k : ArgName) (v : Word) : (s.setArg k v).err = s.err := by cases k <;> rfl
@[simp] theorem setArg_result (k : ArgName) (v : Word) : (s.setArg k v).result = s.result := by cases k <;> rfl
@[simp] theorem setArg_fpsElapsed (k : ArgName) (v : Word) : (s.setArg k v).fpsElapsed = s.fpsElapsed := by cases k <;> rfl
@[simp] theorem setArg_cur (k : ArgName) (v : Word) : (s.setArg k v).cur = s.cur := by cases k <;> rfl
@[simp] theorem setArg_prev (k : ArgName) (v : Word) : (s.setArg k v).prev = s.prev := by cases k <;> rfl
@[simp] theorem setArg_lastMs (k : ArgName) (v : Word) : (s.setArg k v).lastMs = s.lastMs := by cases k <;> rfl
@[simp] theorem setArg_dcLevel (k : ArgName) (v : Word) : (s.setArg k v).dcLevel = s.dcLevel := by cases k <;> rfl
@[simp] theorem setArg_rstLevel (k : ArgName) (v : Word) : (s.setArg k v).rstLevel = s.rstLevel := by cases k <;> rfl
@[simp] theorem setArg_trace (k : ArgName) (v : Word) : (s.setArg k v).trace = s.trace := by cases k <;> rfl
@[simp] theorem setArg_payload (k : ArgName) (v : Word) : (s.setArg k v).payload = s.payload := by cases k <;> rfl
@[simp] theorem setArg_source (k : ArgName) (v : Word) : (s.setArg k v).source = s.source := by cases k <;> rfl
@[simp] theorem setArg_io (k : ArgName) (v : Word) : (s.setArg k v).io = s.io := by cases k <;> rfl
@[simp] theorem setArg_clock (k : ArgName) (v : Word) : (s.setArg k v).clock = s.clock := by cases k <;> rfl
@[simp] theorem setArg_host (k : ArgName) (v : Word) : (s.setArg k v).host = s.host := by cases k <;> rfl
@[simp] theorem setArg_position (k : ArgName) (v : Word) : (s.setArg k v).position = s.position := by cases k <;> rfl
@[simp] theorem setArg_readLog (k : ArgName) (v : Word) : (s.setArg k v).readLog = s.readLog := by cases k <;> rfl

end Sys2Proof.Machine
end

