-- ==== Sys2Proof/Laws/Ops.lean ====
section
/-! SUPPORT. What the shared operations of Ops.lean and Operands.lean can do, each said once: the common dispatch, a
run of primitives, the slices of a chunked write, the bytes of the payload port. -/

namespace Sys2Proof.Machine

/-! ### The common dispatch (30_encoding.md R80) -/

theorem accept_halted {args : List ArgName} {rule : State → State} {s : State} (h : s.fault = true) :
    accept args rule s = s := by
  simp [accept, h]

theorem accept_unwritten {args : List ArgName} {rule : State → State} {s : State} (h : s.fault = false)
    (ha : ¬ ∀ k ∈ args, (s.arg k).written = true) :
    accept args rule s = raiseFault .unwrittenArg s.clearErr := by
  have : args.all (fun k => (s.arg k).written) = false := by
    simpa [List.all_eq_true] using ha
  simp [accept, h, this]

theorem accept_written {args : List ArgName} {rule : State → State} {s : State} (h : s.fault = false)
    (ha : ∀ k ∈ args, (s.arg k).written = true) : accept args rule s = rule s.clearErr := by
  have : args.all (fun k => (s.arg k).written) = true := by
    simpa [List.all_eq_true] using ha
  simp [accept, h, this]

/-- Everything a dispatch can come to. -/
theorem accept_cases (args : List ArgName) (rule : State → State) (s : State) :
    (s.fault = true ∧ accept args rule s = s) ∨
      (s.fault = false ∧ (¬ ∀ k ∈ args, (s.arg k).written = true) ∧
        accept args rule s = raiseFault .unwrittenArg s.clearErr) ∨
      (s.fault = false ∧ (∀ k ∈ args, (s.arg k).written = true) ∧ accept args rule s = rule s.clearErr) := by
  by_cases h : s.fault = true
  · exact .inl ⟨h, accept_halted h⟩
  · have h := Bool.eq_false_iff.mpr h
    by_cases ha : ∀ k ∈ args, (s.arg k).written = true
    · exact .inr (.inr ⟨h, ha, accept_written h ha⟩)
    · exact .inr (.inl ⟨h, ha, accept_unwritten h ha⟩)

/-! ### Runs of primitives -/

/-- The event of a primitive that succeeds (10_state.md R33 to R35). -/
def Action.event : Action → Event
  | .pin p l => .pin p l
  | .bus bytes => .bus bytes
  | .delay ms => .delay ms

/-- The event of a primitive that fails; `Delay` never does. -/
def Action.failEvent : Action → Event
  | .pin p l => .pinFail p l
  | .bus bytes => .busFail bytes
  | .delay ms => .delay ms

/-- Whether a primitive takes an oracle draw (R36). -/
def Action.draws : Action → Bool
  | .pin _ _ => true
  | .bus _ => true
  | .delay _ => false

/-- The state in which exactly the events `es` were appended, with the levels they leave (R33). -/
def State.ran (s : State) (es : List Event) (io : IoOracle) : State :=
  { s with
    trace := s.trace ++ es
    dcLevel := es.foldl (levelAfter .dc) s.dcLevel
    rstLevel := es.foldl (levelAfter .rst) s.rstLevel
    io := io }

theorem ran_nil (s : State) : s.ran [] s.io = s := by simp [State.ran]

theorem ran_ran (s : State) (es es' : List Event) (io io' : IoOracle) :
    (s.ran es io).ran es' io' = s.ran (es ++ es') io' := by
  simp [State.ran, List.foldl_append]

@[simp] theorem ran_io (s : State) (es : List Event) (io : IoOracle) : (s.ran es io).io = io := rfl

/-- One primitive: it succeeds, or it draws a failure. -/
theorem performOne_cases (a : Action) (s : State) :
    (performOne a s = .done (s.ran [a.event] (if a.draws then oracleRest s.io else s.io)) ∧
        (a.draws = true → oracleNext s.io = true)) ∨
      (performOne a s = .failed (s.ran [a.failEvent] (oracleRest s.io)) ∧ a.draws = true ∧
        oracleNext s.io = false) := by
  cases a with
  | pin p l =>
    cases hn : oracleNext s.io <;> cases p <;>
      simp [performOne, pinWrite, hn, Action.event, Action.failEvent, Action.draws, State.ran, State.drawIo,
        State.setLevel, State.emit, levelAfter]
  | bus bytes =>
    cases hn : oracleNext s.io <;>
      simp [performOne, busWrite, hn, Action.event, Action.failEvent, Action.draws, State.ran, State.drawIo,
        State.emit, levelAfter]
  | delay ms => simp [performOne, Action.event, Action.draws, State.ran, State.emit, levelAfter]

/-- Everything a run of primitives can come to: all done, or ended at the first that drew a failure, with the events
of those before it and its own failure event (60_exceptions.md R157). -/
theorem perform_cases (acts : List Action) (s : State) :
    (∃ io, perform acts s = .done (s.ran (acts.map Action.event) io)) ∨
      (∃ before a after io, acts = before ++ a :: after ∧ a.draws = true ∧
        perform acts s = .failed (s.ran (before.map Action.event ++ [a.failEvent]) io)) := by
  induction acts generalizing s with
  | nil => exact .inl ⟨s.io, by simp [perform, ran_nil]⟩
  | cons a as ih =>
    rcases performOne_cases a s with ⟨h, -⟩ | ⟨h, hd, -⟩
    · rcases ih (s.ran [a.event] (if a.draws then oracleRest s.io else s.io)) with
        ⟨io, h'⟩ | ⟨before, b, after, io, he, hb, h'⟩
      · exact .inl ⟨io, by simp [perform, h, h', ran_ran]⟩
      · exact .inr ⟨a :: before, b, after, io, by simp [he], hb, by simp [perform, h, h', ran_ran]⟩
    · exact .inr ⟨[], a, as, oracleRest s.io, rfl, hd, by simp [perform, h]⟩

/-- With every draw ok a run of primitives is done. -/
theorem perform_allOk (acts : List Action) (s : State) (hd : ∀ b ∈ s.io.draws, b = true) (hb : s.io.beyond = true) :
    ∃ io, perform acts s = .done (s.ran (acts.map Action.event) io) := by
  induction acts generalizing s with
  | nil => exact ⟨s.io, by simp [perform, ran_nil]⟩
  | cons a as ih =>
    have hn : oracleNext s.io = true := by
      unfold oracleNext
      split
      · rename_i b l hl; exact hd b (by simp [hl])
      · exact hb
    rcases performOne_cases a s with ⟨h, -⟩ | ⟨-, -, hf⟩
    · have hd' : ∀ b ∈ (if a.draws then oracleRest s.io else s.io).draws, b = true := by
        intro b hm
        refine hd b ?_
        split at hm
        · exact List.mem_of_mem_tail hm
        · exact hm
      have hb' : (if a.draws then oracleRest s.io else s.io).beyond = true := by
        split
        · exact hb
        · exact hb
      obtain ⟨io, h'⟩ := ih (s.ran [a.event] (if a.draws then oracleRest s.io else s.io)) hd' hb'
      exact ⟨io, by simp [perform, h, h', ran_ran]⟩
    · simp [hn] at hf

/-! ### The slices of a chunked write (44_transmit.md R121) -/

theorem slicesFuel_enough (m : Nat) (hm : 0 < m) (n : Nat) (bytes : List Byte) (h : bytes.length ≤ n) :
    slicesFuel m n bytes = slicesFuel m bytes.length bytes := by
  induction n using Nat.strong_induction_on generalizing bytes with
  | _ n ih =>
    cases bytes with
    | nil => cases n <;> rfl
    | cons b bs =>
      cases n with
      | zero => simp at h
      | succ n =>
        simp only [List.length_cons, slicesFuel]
        congr 1
        have hl : ((b :: bs).drop m).length ≤ bs.length := by simp; omega
        have hbs : bs.length ≤ n := by simpa using h
        rw [ih n (by omega) _ (by omega)]
        rcases Nat.lt_or_eq_of_le hbs with hlt | heq
        · exact (ih bs.length (by omega) _ hl).symm
        · rw [heq]; exact (ih n (by omega) _ (by omega)).symm

@[simp] theorem slices_nil (m : Nat) : slices m [] = [] := rfl

/-- One greedy step. -/
theorem slices_cons (m : Nat) (hm : 0 < m) (b : Byte) (bs : List Byte) :
    slices m (b :: bs) = (b :: bs).take m :: slices m ((b :: bs).drop m) := by
  simp only [slices, List.length_cons, slicesFuel]
  congr 1
  exact slicesFuel_enough m hm _ _ (by simp; omega)

/-- A property of the slices of every list, from one greedy step to the next. -/
theorem slices_induction {P : List Byte → List (List Byte) → Prop} (m : Nat) (hm : 0 < m) (hnil : P [] [])
    (hcons : ∀ bytes, bytes ≠ [] → P (bytes.drop m) (slices m (bytes.drop m)) →
      P bytes (bytes.take m :: slices m (bytes.drop m))) (bytes : List Byte) : P bytes (slices m bytes) := by
  generalize hn : bytes.length = n
  induction n using Nat.strong_induction_on generalizing bytes with
  | _ n ih =>
    cases bytes with
    | nil => exact hnil
    | cons b bs =>
      rw [slices_cons m hm]
      refine hcons _ (by simp) (ih ((b :: bs).drop m).length ?_ _ rfl)
      rw [← hn]
      simp
      omega

/-- No byte is inserted, altered or moved. -/
theorem slices_flatten (m : Nat) (hm : 0 < m) (bytes : List Byte) : (slices m bytes).flatten = bytes :=
  slices_induction (P := fun bytes ws => ws.flatten = bytes) m hm rfl
    (fun bytes _ ih => by simp [ih]) bytes

/-- No slice is empty or longer than `m`. -/
theorem length_of_mem_slices (m : Nat) (hm : 0 < m) (bytes w : List Byte) (hw : w ∈ slices m bytes) :
    1 ≤ w.length ∧ w.length ≤ m := by
  revert w
  refine slices_induction (P := fun _ ws => ∀ w ∈ ws, 1 ≤ w.length ∧ w.length ≤ m) m hm (by simp) ?_ bytes
  intro bytes hne ih w hw
  rcases List.mem_cons.mp hw with rfl | hw
  · have := List.length_pos_iff.mpr hne
    simp
    omega
  · exact ih w hw

/-- Their number is the length divided by `m`, rounded up. -/
theorem length_slices (m : Nat) (hm : 0 < m) (bytes : List Byte) :
    (slices m bytes).length = (bytes.length + m - 1) / m := by
  refine slices_induction (P := fun bytes ws => ws.length = (bytes.length + m - 1) / m) m hm ?_ ?_ bytes
  · exact (Nat.div_eq_of_lt (by simp; omega)).symm
  · intro bytes hne ih
    have := List.length_pos_iff.mpr hne
    rw [List.length_cons, ih, List.length_drop, ← Nat.add_div_right _ hm]
    by_cases h : m ≤ bytes.length
    · congr 1; omega
    · rw [Nat.div_eq_of_lt_le (k := 1) (by omega) (by omega), Nat.div_eq_of_lt_le (k := 1) (by omega) (by omega)]

/-- Every slice but the last is full. -/
theorem length_getElem_slices (m : Nat) (hm : 0 < m) (bytes : List Byte) (k : Nat)
    (hk : k + 1 < (slices m bytes).length) : ((slices m bytes)[k]).length = m := by
  revert k
  refine slices_induction (P := fun _ ws => ∀ k, (hk : k + 1 < ws.length) → (ws[k]).length = m) m hm (by simp) ?_ bytes
  intro bytes hne ih k hk
  cases k with
  | zero =>
    have h2 : 0 < (slices m (bytes.drop m)).length := by simpa using hk
    have h3 : bytes.drop m ≠ [] := by
      intro h; simp [h] at h2
    have h4 := List.length_pos_iff.mpr h3
    simp at h4 ⊢
    omega
  | succ k => exact ih k (by simpa using hk)

/-! ### The payload port (10_state.md R30) -/

@[simp] theorem length_payloadBytes (p : PayloadPort) (n : Nat) : (payloadBytes p n).length = n := by
  simp [payloadBytes]; omega

/-- Byte `k` of what an operation reads is `PayloadByte(k)`. -/
theorem getElem_payloadBytes (p : PayloadPort) (n k : Nat) (h : k < (payloadBytes p n).length) :
    (payloadBytes p n)[k] = payloadByte p k := by
  have hk : k < n := by simpa using h
  simp only [payloadBytes, payloadByte, List.getElem_append, List.getD_eq_getElem?_getD]
  split
  · rename_i h1; simp at h1; simp [h1.2]
  · rename_i h1; simp at h1; simp [List.getElem?_eq_none (h1 hk)]

/-- `[PayloadByte(0), ..., PayloadByte(n - 1)]`. -/
theorem payloadBytes_eq_map (p : PayloadPort) (n : Nat) :
    payloadBytes p n = (List.range n).map (payloadByte p) := by
  refine List.ext_getElem (by simp) fun k h _ => ?_
  simp [getElem_payloadBytes]

end Sys2Proof.Machine
end

