-- ==== Sys2Proof/Laws/Grid.lean ====
section
/-! SUPPORT. What a grid operation leaves in every cell (10_state.md R24, 41_framebuffer.md). -/

namespace Sys2Proof.Machine

theorem getElem_mapFrom {α β : Type} (f : Nat → α → β) (l : List α) (i k : Nat) (h : k < (mapFrom f i l).length) :
    (mapFrom f i l)[k] = f (i + k) (l[k]'(by simpa [length_mapFrom] using h)) := by
  induction l generalizing i k with
  | nil => simp [mapFrom] at h
  | cons a as ih =>
    cases k with
    | zero => simp [mapFrom]
    | succ k => simp [mapFrom, ih, Nat.add_left_comm, Nat.add_comm]

@[simp] theorem getElem_mapIndexed {α β : Type} {n : Nat} (f : Nat → α → β) (v : Vector α n) (k : Nat) (h : k < n) :
    (mapIndexed f v)[k] = f k v[k] := by
  have := getElem_mapFrom f v.toList 0 k (by simpa [length_mapFrom] using h)
  simpa [mapIndexed] using this

/-- Two grids with the same cells are the same grid. -/
theorem Grid.ext_cell {g h : Grid} (hc : ∀ x y, g.cell x y = h.cell x y) : g = h := by
  obtain ⟨gr⟩ := g
  obtain ⟨hr⟩ := h
  congr 1
  exact Vector.ext fun y hy => Vector.ext fun x hx => hc ⟨x, hx⟩ ⟨y, hy⟩

@[simp] theorem Grid.cell_update (f : Nat → Nat → PackedColor → PackedColor) (g : Grid) (x : Fin WIDTH)
    (y : Fin HEIGHT) : (g.update f).cell x y = f x y (g.cell x y) := by
  simp [Grid.cell, Grid.update]

@[simp] theorem Grid.cell_const (c : PackedColor) (x : Fin WIDTH) (y : Fin HEIGHT) : (Grid.const c).cell x y = c := by
  simp [Grid.cell, Grid.const]

theorem Grid.cell_ofDraws (d : Nat → PackedColor) (x : Fin WIDTH) (y : Fin HEIGHT) :
    (Grid.ofDraws d).cell x y = d (x + y * WIDTH) := by
  simp [Grid.ofDraws]

/-- Cell `i` of a drawn grid is draw `i` (10_state.md R40). -/
@[simp] theorem Grid.at_ofDraws (d : Nat → PackedColor) (i : Fin NCELLS) : (Grid.ofDraws d).at i = d i := by
  have : i.val % WIDTH + i.val / WIDTH * WIDTH = i.val := by
    rw [Nat.mul_comm]; exact Nat.mod_add_div _ _
  simp only [Grid.at, Grid.cell_ofDraws, this]

/-- Writing the same colour into every cell. -/
theorem Grid.update_all (c : PackedColor) (g : Grid) : g.update (fun _ _ _ => c) = Grid.const c :=
  Grid.ext_cell fun x y => by simp

/-- Pixel (px, py) lies in the rectangle. -/
theorem inRect_iff (x y w h px py : Nat) :
    inRect x y w h px py = true ↔ x ≤ px ∧ px < x + w ∧ y ≤ py ∧ py < y + h := by
  simp [inRect, and_assoc]

/-- FILL_RECT's cells (R96). -/
theorem cell_fillGrid (x y w h : Nat) (c : PackedColor) (g : Grid) (px : Fin WIDTH) (py : Fin HEIGHT) :
    (fillGrid x y w h c g).cell px py = if inRect x y w h px py then c else g.cell px py := by
  simp [fillGrid]

/-- BLIT's cells (R100). -/
theorem cell_blitGrid (x y w h sx sy : Nat) (src : SourcePort) (g : Grid) (px : Fin WIDTH) (py : Fin HEIGHT) :
    (blitGrid x y w h sx sy src g).cell px py =
      if inRect x y w h px py && sx + (px - x) < src.width && sy + (py - y) < src.height then
        fromChannels (srcPixel src (sx + (px - x)) (sy + (py - y)))
      else g.cell px py := by
  simp [blitGrid]

/-- The bytes of a row are two for each cell. -/
theorem length_rowBytes (row : Vector PackedColor WIDTH) : (rowBytes row).length = ROW_BYTES := by
  simp [rowBytes, List.length_flatMap, cellBytes, show WIDTH * 2 = ROW_BYTES from rfl]

/-- 41_framebuffer.md R103: the length of RawBytes, for a region of the grid. -/
theorem length_rawBytes (g : Grid) (top bottom : Nat) (hb : bottom < HEIGHT) :
    (rawBytes g top bottom).length = (bottom + 1 - top) * ROW_BYTES := by
  have h : ∀ l : List (Vector PackedColor WIDTH), (l.flatMap rowBytes).length = l.length * ROW_BYTES := by
    intro l
    induction l with
    | nil => rfl
    | cons a as ih =>
      simp only [List.flatMap_cons, List.length_append, ih, length_rowBytes, List.length_cons]
      rw [Nat.succ_mul, Nat.add_comm]
  rw [rawBytes, h]
  have : HEIGHT = 280 := rfl
  simp only [List.length_take, List.length_drop, Vector.length_toList]
  congr 1
  omega

end Sys2Proof.Machine
end

