-- ==== Sys2Proof/Laws/Scan.lean ====
section
/-! SUPPORT. What the scan can answer (42_scanner.md R106, R109). -/

namespace Sys2Proof.Machine

/-- R106: a row is dirty exactly when some cell of it is not almost equal to the same cell of prev. -/
theorem rowDirty_iff (cur prev : Grid) (r : Fin HEIGHT) :
    rowDirty cur prev r = true ↔ ∃ x, almostEq (cur.cell x r) (prev.cell x r) SCAN_TOL = false := by
  simp only [rowDirty, rowsDiffer, List.any_eq_true, Bool.not_eq_true', Grid.cell]
  constructor
  · rintro ⟨p, hp, hd⟩
    obtain ⟨k, hk, rfl⟩ := List.mem_iff_getElem.mp hp
    have hk' : k < WIDTH := by simpa using hk
    exact ⟨⟨k, hk'⟩, by simpa using hd⟩
  · rintro ⟨x, hd⟩
    refine ⟨(cur.rows[r][x], prev.rows[r][x]), ?_, hd⟩
    refine List.mem_iff_getElem.mpr ⟨x, by simp, by simp⟩

theorem mem_rowOrder (r : Fin HEIGHT) : r ∈ rowOrder := List.mem_finRange r

/-- The first match of an ordered list is below every match. -/
theorem find_first_le {l : List (Fin HEIGHT)} {p : Fin HEIGHT → Bool} {a : Fin HEIGHT}
    {R : Fin HEIGHT → Fin HEIGHT → Prop} (hl : l.Pairwise R) (hr : ∀ b, R b b) (h : l.find? p = some a) :
    ∀ b ∈ l, p b = true → R a b := by
  induction l with
  | nil => simp at h
  | cons c cs ih =>
    intro b hb hpb
    rw [List.find?_cons] at h
    cases hc : p c with
    | true =>
      simp [hc] at h
      subst h
      rcases List.mem_cons.mp hb with rfl | hb
      · exact hr _
      · exact (List.pairwise_cons.mp hl).1 b hb
    | false =>
      simp [hc] at h
      rcases List.mem_cons.mp hb with rfl | hb
      · simp [hc] at hpb
      · exact ih (List.pairwise_cons.mp hl).2 h b hb hpb

theorem pairwise_rowOrder : rowOrder.Pairwise (· ≤ ·) :=
  (List.pairwise_lt_finRange HEIGHT).imp le_of_lt

/-- Everything a scan can answer: Empty, with no row dirty; or the first and the last dirty row. -/
theorem scan_cases (cur prev : Grid) :
    (scan cur prev = none ∧ ∀ r, rowDirty cur prev r = false) ∨
      (∃ top bottom, scan cur prev = some (top, bottom) ∧ top ≤ bottom ∧ rowDirty cur prev top = true ∧
        rowDirty cur prev bottom = true ∧ ∀ r, rowDirty cur prev r = true → top ≤ r ∧ r ≤ bottom) := by
  unfold scan
  cases ht : rowOrder.find? (rowDirty cur prev) with
  | none =>
    refine .inl ⟨rfl, fun r => ?_⟩
    simpa using List.find?_eq_none.mp ht r (mem_rowOrder r)
  | some top =>
    have hdt : rowDirty cur prev top = true := List.find?_some ht
    cases hb : rowOrder.reverse.find? (rowDirty cur prev) with
    | none =>
      have := List.find?_eq_none.mp hb top (List.mem_reverse.mpr (mem_rowOrder top))
      exact absurd hdt this
    | some bottom =>
      have h1 := find_first_le pairwise_rowOrder (fun b => le_refl b) ht
      have h2 := find_first_le (R := fun a b => b ≤ a) (List.pairwise_reverse.mpr pairwise_rowOrder)
        (fun b => le_refl b) hb
      refine .inr ⟨top, bottom, rfl, ?_, hdt, List.find?_some hb, fun r hr =>
        ⟨h1 r (mem_rowOrder r) hr, h2 r (List.mem_reverse.mpr (mem_rowOrder r)) hr⟩⟩
      exact h2 top (List.mem_reverse.mpr (mem_rowOrder top)) hdt

end Sys2Proof.Machine
end

