-- ==== Sys2Proof/Laws/Exec.lean ====
section
/-! SUPPORT. Every operation in one shape: the dispatch, then either one fault or a first write, a run of primitives
and a conclusion. `exec_cases` says once everything an operation can come to; later proofs cite it. -/

namespace Sys2Proof.Laws

open Machine

/-- The rule of each operation, behind the common dispatch. -/
def ruleOf : Instr → State → State
  | .reset => resetRule
  | .init => initRule
  | .cvtPack => cvtPackRule
  | .cvtUnpack => cvtUnpackRule
  | .almostEq => almostEqRule
  | .fillRect => fillRectRule
  | .clear => clearRule
  | .blit => blitRule
  | .scan => scanRule
  | .flush f => flushRule f
  | .setWindow => setWindowRule
  | .sendCmd cb => sendCmdRule cb
  | .sendData => sendDataRule
  | .sendRawRegion => sendRawRegionRule

theorem exec_eq (i : Instr) (s : State) : exec i s = .next (accept (argsRead i) (ruleOf i) s) := by
  cases i <;> rfl

/-- The bounds an operation checks, as its rule computes them (60_exceptions.md R159). -/
def boundsOk : Instr → State → Bool
  | .fillRect, s => rectOk (layoutX s.arg1.value) (layoutY s.arg1.value) (layoutW s.arg2.value) (layoutH s.arg2.value)
  | .blit, s => rectOk (layoutX s.arg1.value) (layoutY s.arg1.value) (layoutW s.arg2.value) (layoutH s.arg2.value)
  | .setWindow, s =>
    windowOk (layoutX s.arg1.value) (layoutY s.arg1.value) (layoutX s.arg2.value) (layoutY s.arg2.value)
  | .sendRawRegion, s =>
    windowOk (layoutX s.arg1.value) (layoutY s.arg1.value) (layoutX s.arg1.value + layoutW s.arg2.value)
      (layoutY s.arg1.value + layoutH s.arg2.value)
  | .reset, _ => true
  | .init, _ => true
  | .cvtPack, _ => true
  | .cvtUnpack, _ => true
  | .almostEq, _ => true
  | .clear, _ => true
  | .scan, _ => true
  | .flush _, _ => true
  | .sendCmd _, _ => true
  | .sendData, _ => true

theorem boundsOk_iff (i : Instr) (s : State) : boundsOk i s = true ↔ boundsAllow i s := by
  (cases i <;>
    simp only [boundsOk, boundsAllow, rectOk, windowOk, layoutX, layoutY, layoutW, layoutH, loHalf_toNat, hiHalf_toNat,
      Bool.and_eq_true, decide_eq_true_eq, and_assoc, WIDTH, HEIGHT])
  omega

/-- The fault a rule raises, if any: STATE first, then BOUNDS (R160). -/
def faultOf (i : Instr) (s : State) : Option FaultCode :=
  if stateAllows i s.proto = false then some .state else if boundsOk i s = false then some .bounds else none

/-- The primitives an operation asks for. -/
def actionsOf : Instr → State → List Action
  | .reset, s => resetActions s.cfg
  | .init, s => initActions s.cfg
  | .flush f, s => flushActions s.cfg s.cur (flushRegion f s)
  | .setWindow, s =>
    emitWindow s.cfg (layoutX s.arg1.value) (layoutY s.arg1.value) (layoutX s.arg2.value) (layoutY s.arg2.value)
  | .sendCmd cb, s => sendCommand s.cfg cb (payloadBytes s.payload (layoutU32 s.arg1.value))
  | .sendData, s => sendDataFramed s.cfg (payloadBytes s.payload (layoutU32 s.arg1.value))
  | .sendRawRegion, s =>
    rawRegionActions s.cfg s.payload (layoutX s.arg1.value) (layoutY s.arg1.value) (layoutW s.arg2.value)
      (layoutH s.arg2.value)
  | .cvtPack, _ => []
  | .cvtUnpack, _ => []
  | .almostEq, _ => []
  | .fillRect, _ => []
  | .clear, _ => []
  | .blit, _ => []
  | .scan, _ => []

/-- What an operation writes before its first primitive: STATE, for RESET and INIT. -/
def firstWrite : Instr → State → State
  | .reset, s => s.setProto .resetting
  | .init, s => s.setProto .configuring
  | .flush _, s => s
  | .setWindow, s => s
  | .sendCmd _, s => s
  | .sendData, s => s
  | .sendRawRegion, s => s
  | .cvtPack, s => s
  | .cvtUnpack, s => s
  | .almostEq, s => s
  | .fillRect, s => s
  | .clear, s => s
  | .blit, s => s
  | .scan, s => s

/-- What an operation started at `s` writes after its last primitive. -/
def lastWrite : Instr → State → State → State
  | .init, _, t => t.setProto .ready
  | .flush f, s, t => t.copyCurToPrev.updateFps.setResult (BitVec.ofNat 32 (flushSent (flushRegion f s)))
  | .cvtPack, s, t => t.setResult ((fromChannels (layoutRgb s.arg1.value)).setWidth 32)
  | .cvtUnpack, s, t => t.setResult (rgbWord (channels (layoutColor s.arg1.value)))
  | .almostEq, s, t =>
    t.setResult (if almostEq (layoutA s.arg1.value) (layoutB s.arg1.value) (layoutU32 s.arg2.value) then 1 else 0)
  | .fillRect, s, t =>
    t.setCur (fillGrid (layoutX s.arg1.value) (layoutY s.arg1.value) (layoutW s.arg2.value) (layoutH s.arg2.value)
      (layoutColor s.arg3.value) s.cur)
  | .clear, s, t => t.setCur (Grid.const (layoutColor s.arg3.value))
  | .blit, s, t =>
    t.setCur (blitGrid (layoutX s.arg1.value) (layoutY s.arg1.value) (layoutW s.arg2.value) (layoutH s.arg2.value)
      (layoutSX s.arg3.value) (layoutSY s.arg3.value) s.source s.cur)
  | .scan, s, t => t.setResult (regionWord (scan s.cur s.prev))
  | .reset, _, t => t
  | .setWindow, _, t => t
  | .sendCmd _, _, t => t
  | .sendData, _, t => t
  | .sendRawRegion, _, t => t

/-- The rule of every operation in the one shape. -/
theorem ruleOf_eq (i : Instr) (s : State) :
    ruleOf i s =
      match faultOf i s with
      | some c => raiseFault c s
      | none => (perform (actionsOf i s) (firstWrite i s)).conclude (lastWrite i s) := by
  cases i with
  | reset => rfl
  | init =>
    by_cases h : s.proto = .resetting
    · simp [ruleOf, initRule, faultOf, stateAllows, boundsOk, h]; rfl
    · simp [ruleOf, initRule, faultOf, stateAllows, h]
  | cvtPack => rfl
  | cvtUnpack => rfl
  | almostEq => rfl
  | fillRect =>
    by_cases h : rectOk (layoutX s.arg1.value) (layoutY s.arg1.value) (layoutW s.arg2.value) (layoutH s.arg2.value)
    · simp [ruleOf, fillRectRule, faultOf, stateAllows, boundsOk, h]; rfl
    · simp [ruleOf, fillRectRule, faultOf, stateAllows, boundsOk, h]
  | clear => rfl
  | blit =>
    by_cases h : rectOk (layoutX s.arg1.value) (layoutY s.arg1.value) (layoutW s.arg2.value) (layoutH s.arg2.value)
    · simp [ruleOf, blitRule, faultOf, stateAllows, boundsOk, h]; rfl
    · simp [ruleOf, blitRule, faultOf, stateAllows, boundsOk, h]
  | scan => rfl
  | flush f =>
    by_cases h : s.proto = .ready
    · simp [ruleOf, flushRule, faultOf, stateAllows, boundsOk, h]; rfl
    · simp [ruleOf, flushRule, faultOf, stateAllows, h]
  | setWindow =>
    by_cases h : s.proto = .ready
    · by_cases hb : windowOk (layoutX s.arg1.value) (layoutY s.arg1.value) (layoutX s.arg2.value)
        (layoutY s.arg2.value)
      · simp [ruleOf, setWindowRule, faultOf, stateAllows, boundsOk, h, hb]; rfl
      · simp [ruleOf, setWindowRule, faultOf, stateAllows, boundsOk, h, hb]
    · simp [ruleOf, setWindowRule, faultOf, stateAllows, h]
  | sendCmd cb => rfl
  | sendData => rfl
  | sendRawRegion =>
    by_cases h : s.proto = .ready
    · by_cases hb : windowOk (layoutX s.arg1.value) (layoutY s.arg1.value) (layoutX s.arg1.value + layoutW s.arg2.value)
        (layoutY s.arg1.value + layoutH s.arg2.value)
      · simp [ruleOf, sendRawRegionRule, faultOf, stateAllows, boundsOk, h, hb]; rfl
      · simp [ruleOf, sendRawRegionRule, faultOf, stateAllows, boundsOk, h, hb]
    · simp [ruleOf, sendRawRegionRule, faultOf, stateAllows, h]

/-- The events of an operation with every write ok. -/
def eventsOf (i : Instr) (s : State) : List Event := (actionsOf i s).map Action.event

/-- The state an operation started at `s` concludes in when its primitives succeed and leave the oracle at `io`. -/
def concluded (i : Instr) (s : State) (io : IoOracle) : State :=
  lastWrite i s ((firstWrite i s).ran (eventsOf i s) io)

/-- Everything an operation can come to: the block was halted; an operand was unwritten; the rule raised a fault; the
rule ran to its end; or a write failed. -/
theorem exec_cases {i : Instr} {s t : State} (h : exec i s = .next t) :
    (s.fault = true ∧ t = s) ∨
      (s.fault = false ∧ ¬ ArgsWritten i s ∧ t = raiseFault .unwrittenArg s.clearErr) ∨
      (s.fault = false ∧ ArgsWritten i s ∧ ∃ c, faultOf i s = some c ∧ t = raiseFault c s.clearErr) ∨
      (s.fault = false ∧ ArgsWritten i s ∧ faultOf i s = none ∧ ∃ io, t = concluded i s.clearErr io) ∨
      (s.fault = false ∧ ArgsWritten i s ∧ faultOf i s = none ∧ ∃ before a after io,
        actionsOf i s.clearErr = before ++ a :: after ∧ a.draws = true ∧
          t = ((firstWrite i s.clearErr).ran (before.map Action.event ++ [a.failEvent]) io).setIoError) := by
  rw [exec_eq] at h
  have ht : accept (argsRead i) (ruleOf i) s = t := by injection h
  rcases accept_cases (argsRead i) (ruleOf i) s with ⟨hf, he⟩ | ⟨hf, ha, he⟩ | ⟨hf, ha, he⟩
  · exact .inl ⟨hf, ht ▸ he⟩
  · exact .inr (.inl ⟨hf, ha, ht ▸ he⟩)
  · have hc : faultOf i s.clearErr = faultOf i s := by cases i <;> rfl
    rw [he, ruleOf_eq, hc] at ht
    cases hx : faultOf i s with
    | some c => exact .inr (.inr (.inl ⟨hf, ha, c, rfl, by simpa [hx] using ht.symm⟩))
    | none =>
      simp only [hx] at ht
      rcases perform_cases (actionsOf i s.clearErr) (firstWrite i s.clearErr) with
        ⟨io, hp⟩ | ⟨before, a, after, io, hs, hd, hp⟩
      · exact .inr (.inr (.inr (.inl ⟨hf, ha, rfl, io, by rw [← ht, hp]; rfl⟩)))
      · exact .inr (.inr (.inr (.inr ⟨hf, ha, rfl, before, a, after, io, hs, hd, by rw [← ht, hp]; rfl⟩)))

/-- An operation the dispatch accepts and whose rule raises no fault, with every draw ok. -/
theorem exec_allOk {i : Instr} {s : State} (ha : Accepted i s) (hf : faultOf i s = none) (hio : IoAllOk s) :
    ∃ io, exec i s = .next (concluded i s.clearErr io) := by
  have hc : faultOf i s.clearErr = none := by rw [← hf]; cases i <;> rfl
  have hio' : (firstWrite i s.clearErr).io = s.io := by cases i <;> rfl
  obtain ⟨io, hp⟩ := perform_allOk (actionsOf i s.clearErr) (firstWrite i s.clearErr)
    (by rw [hio']; exact hio.1) (by rw [hio']; exact hio.2)
  refine ⟨io, ?_⟩
  rw [exec_eq, accept_written ha.1 ha.2, ruleOf_eq, hc]
  simp only [hp]
  rfl

/-- Every operation answers a next state. -/
theorem exec_next (i : Instr) (s : State) : ∃ t, exec i s = .next t := ⟨_, exec_eq i s⟩

end Sys2Proof.Laws
end

