-- ==== Sys2Proof/Laws/Events.lean ====
section
/-! SUPPORT. The events of the framed sequences (43_window.md R115, 44_transmit.md R122, R124), the levels they leave
(10_state.md R33), and the bytes of a window bound (20_memory.md R49). -/

namespace Sys2Proof.Laws

open Machine

/-- A bound of the window on two bytes, high byte first. -/
theorem boundBytes_eq (v : Nat) (h : v < 65536) :
    boundBytes v = [BitVec.ofNat 8 (v / 256), BitVec.ofNat 8 (v % 256)] := by
  have h1 : hi8 (BitVec.ofNat 16 v) = BitVec.ofNat 8 (v / 256) := by
    apply BitVec.eq_of_toNat_eq; rw [hi8_toNat, BitVec.toNat_ofNat, BitVec.toNat_ofNat]; omega
  have h2 : lo8 (BitVec.ofNat 16 v) = BitVec.ofNat 8 (v % 256) := by
    apply BitVec.eq_of_toNat_eq; rw [lo8_toNat, BitVec.toNat_ofNat, BitVec.toNat_ofNat]; omega
  rw [boundBytes, h1, h2]

theorem sendCommand_events (p : Params) (c : Byte) (params : List Byte) :
    (sendCommand p c params).map Action.event = commandEvents p c params := by
  simp [sendCommand, commandEvents, chunkedWrite, Action.event]

theorem sendDataFramed_events (p : Params) (bytes : List Byte) :
    (sendDataFramed p bytes).map Action.event = dataEvents p bytes := by
  simp [sendDataFramed, dataEvents, chunkedWrite, Action.event]

/-- The events of a window inside the panel. -/
theorem emitWindow_events (p : Params) (x0 y0 x1 y1 : Nat) (hx : x0 < x1) (hx1 : x1 ≤ 240) (hy : y0 < y1)
    (hy1 : y1 ≤ 280) :
    (emitWindow p x0 y0 x1 y1).map Action.event = windowEvents p x0 (x1 - 1) (y0 + 20) (y1 + 19) := by
  simp only [emitWindow, windowEvents, List.map_append, sendCommand_events, boundParams, Y_OFFSET]
  rw [boundBytes_eq x0 (by omega), boundBytes_eq (x1 - 1) (by omega), boundBytes_eq (y0 + 20) (by omega),
    boundBytes_eq (y1 + 20 - 1) (by omega)]
  rfl

/-! ### The levels these events leave -/

theorem level_slices (pin : Pin) (l : Level) (ws : List (List Byte)) :
    (ws.map Event.bus).foldl (levelAfter pin) l = l := by
  induction ws generalizing l with
  | nil => rfl
  | cons a as ih => simp [levelAfter, ih]

theorem dcLevel_commandEvents (p : Params) (c : Byte) (params : List Byte) (l : Level) :
    (commandEvents p c params).foldl (levelAfter .dc) l = Level.ofBool (!p.dcCmdLevel) := by
  simp [commandEvents, levelAfter, level_slices]

theorem rstLevel_commandEvents (p : Params) (c : Byte) (params : List Byte) (l : Level) :
    (commandEvents p c params).foldl (levelAfter .rst) l = l := by
  simp [commandEvents, levelAfter, level_slices]

theorem dcLevel_dataEvents (p : Params) (bytes : List Byte) (l : Level) :
    (dataEvents p bytes).foldl (levelAfter .dc) l = Level.ofBool (!p.dcCmdLevel) := by
  simp [dataEvents, levelAfter, level_slices]

theorem rstLevel_dataEvents (p : Params) (bytes : List Byte) (l : Level) :
    (dataEvents p bytes).foldl (levelAfter .rst) l = l := by
  simp [dataEvents, levelAfter, level_slices]

theorem dcLevel_windowEvents (p : Params) (xa xb ya yb : Nat) (l : Level) :
    (windowEvents p xa xb ya yb).foldl (levelAfter .dc) l = Level.ofBool (!p.dcCmdLevel) := by
  simp only [windowEvents, List.foldl_append, dcLevel_commandEvents]

theorem rstLevel_windowEvents (p : Params) (xa xb ya yb : Nat) (l : Level) :
    (windowEvents p xa xb ya yb).foldl (levelAfter .rst) l = l := by
  simp only [windowEvents, List.foldl_append, rstLevel_commandEvents]

/-! ### Concluded operations -/

/-- An operation that runs to its end appends exactly its events. -/
theorem concluded_trace (i : Instr) (s : State) (io : IoOracle) :
    (concluded i s io).trace = s.trace ++ eventsOf i s := by
  cases i <;> rfl

theorem concluded_err (i : Instr) (s : State) (io : IoOracle) : (concluded i s io).err = s.err := by
  cases i <;> rfl

/-- The event of a primitive is no failure; its failing form is one. -/
theorem event_failure (a : Action) : a.event.failure = false := by cases a <;> rfl

theorem failEvent_eq (a : Action) (h : a.draws = true) :
    a.failEvent = a.event.failed ∧ a.failEvent.failure = true := by
  cases a <;> simp_all [Action.draws, Action.failEvent, Action.event, Event.failed, Event.failure]

end Sys2Proof.Laws
end

