-- ==== Sys2Proof/Laws/PerInstr.lean ====
section
/-! SUPPORT. Facts about every instruction as syntax, one lemma per constructor. -/

namespace Sys2Proof.Laws.WordShape

/-- The command word of the instruction is legal (30_encoding.md R73, R74) and its fields are the instruction's:
OPC its operation code, F and CB its operands or 0 (R66, R69). -/
def Statement (i : Instr) : Prop :=
  legalWord (encode i) = true ∧ opcField (encode i) = opcodeOf i ∧
    forceField (encode i) = (match i with | .flush f => f | _ => false) ∧
    cbField (encode i) = (match i with | .sendCmd cb => cb | _ => 0)

theorem reset : Statement .reset := by unfold Statement; decide
theorem init : Statement .init := by unfold Statement; decide
theorem cvtPack : Statement .cvtPack := by unfold Statement; decide
theorem cvtUnpack : Statement .cvtUnpack := by unfold Statement; decide
theorem almostEq : Statement .almostEq := by unfold Statement; decide
theorem fillRect : Statement .fillRect := by unfold Statement; decide
theorem clear : Statement .clear := by unfold Statement; decide
theorem blit : Statement .blit := by unfold Statement; decide
theorem scan : Statement .scan := by unfold Statement; decide
theorem flush (f : Bool) : Statement (.flush f) := by unfold Statement; revert f; decide
theorem setWindow : Statement .setWindow := by unfold Statement; decide
theorem sendCmd (cb : Byte) : Statement (.sendCmd cb) := by unfold Statement; revert cb; decide +kernel
theorem sendData : Statement .sendData := by unfold Statement; decide
theorem sendRawRegion : Statement .sendRawRegion := by unfold Statement; decide

end Sys2Proof.Laws.WordShape
end

