-- ==== Sys2Proof/Laws/Step.lean ====
section
/-! SUPPORT. What a step can do: one lemma for each kind of host event, and `step_cases`, which says once everything a
step that answers a next state has done. -/

namespace Sys2Proof.Laws

open Machine

/-- The state an access is served on: the event taken, the access counted (10_state.md R37). -/
def served (rest : List HostEvent) (s : State) : State := (s.takeEvent rest).countAccess

theorem served_eq (rest : List HostEvent) (s : State) :
    served rest s = { s with host := rest, position := s.position + 1 } := rfl

theorem step_idle {s : State} (h : s.host = []) : step s = .next s := by
  simp [step, serveNext, h]

theorem step_event {s : State} {ev : HostEvent} {rest : List HostEvent} (h : s.host = ev :: rest) :
    step s = serve ev (s.takeEvent rest) := by
  simp [step, serveNext, h]

theorem step_read {s : State} {rest : List HostEvent} {width off : Nat} (h : s.host = .read width off :: rest)
    (ha : accessOk width off = true) :
    step s = .next ((served rest s).logRead (readRegister (registerAt off) s)) := by
  rw [step_event h]
  simp only [serve, ha, if_true]
  cases registerAt off with
  | arg k => cases k <;> rfl
  | _ => rfl

theorem step_write {s : State} {rest : List HostEvent} {width off : Nat} {v : Word}
    (h : s.host = .write width off v :: rest) (ha : accessOk width off = true) :
    step s = writeRegister (registerAt off) v (served rest s) := by
  rw [step_event h]
  simp [serve, ha, served]

theorem step_read_refused {s : State} {rest : List HostEvent} {width off : Nat} (h : s.host = .read width off :: rest)
    (ha : accessOk width off = false) : step s = .refused (.accessOutsideInterface width off) := by
  rw [step_event h]
  simp [serve, ha]

theorem step_write_refused {s : State} {rest : List HostEvent} {width off : Nat} {v : Word}
    (h : s.host = .write width off v :: rest) (ha : accessOk width off = false) :
    step s = .refused (.accessOutsideInterface width off) := by
  rw [step_event h]
  simp [serve, ha]

/-- An OP write of a word that decodes (30_encoding.md R80). -/
theorem runWord_ok {w : Word} {i : Instr} (h : decode w = .ok i) (s : State) : runWord w s = exec i s := by
  simp [runWord, h]

/-- An OP write of an illegal word (60_exceptions.md R153). -/
theorem runWord_illegal {w : Word} {e : Reject} (h : decode w = .error e) (s : State) :
    runWord w s = .next (if s.fault then s else raiseFault .illegalOp s.clearErr) := by
  simp [runWord, h, accept]

/-- Everything a step can have done. -/
theorem step_cases {s t : State} (h : step s = .next t) :
    (s.host = [] ∧ t = s) ∨
      (∃ width off rest, s.host = .read width off :: rest ∧ accessOk width off = true ∧
        t = (served rest s).logRead (readRegister (registerAt off) s)) ∨
      (∃ width off w rest i, s.host = .write width off w :: rest ∧ accessOk width off = true ∧ registerAt off = .op ∧
        decode w = .ok i ∧ exec i (served rest s) = .next t) ∨
      (∃ width off w rest e, s.host = .write width off w :: rest ∧ accessOk width off = true ∧ registerAt off = .op ∧
        decode w = .error e ∧
          t = if s.fault then served rest s else raiseFault .illegalOp (served rest s).clearErr) ∨
      (∃ width off v rest k, s.host = .write width off v :: rest ∧ accessOk width off = true ∧
        registerAt off = .arg k ∧ t = (served rest s).setArg k v) ∨
      (∃ width off v rest, s.host = .write width off v :: rest ∧ accessOk width off = true ∧ t = served rest s) ∨
      (∃ p rest, s.host = .setPayload p :: rest ∧ t = (s.takeEvent rest).setPayload p) ∨
      (∃ p rest, s.host = .setSource p :: rest ∧ t = (s.takeEvent rest).setSource p) := by
  cases hh : s.host with
  | nil =>
    rw [step_idle hh] at h
    exact .inl ⟨rfl, by injection h with h; exact h.symm⟩
  | cons ev rest =>
    cases ev with
    | read width off =>
      cases ha : accessOk width off with
      | true =>
        rw [step_read hh ha] at h
        exact .inr (.inl ⟨width, off, rest, rfl, ha, by injection h with h; exact h.symm⟩)
      | false => rw [step_read_refused hh ha] at h; cases h
    | write width off v =>
      cases ha : accessOk width off with
      | false => rw [step_write_refused hh ha] at h; cases h
      | true =>
        rw [step_write hh ha] at h
        cases hr : registerAt off with
        | op =>
          simp only [hr, writeRegister] at h
          cases hd : decode v with
          | ok i =>
            rw [runWord_ok hd] at h
            exact .inr (.inr (.inl ⟨width, off, v, rest, i, rfl, ha, hr, hd, h⟩))
          | error e =>
            rw [runWord_illegal hd] at h
            exact .inr (.inr (.inr (.inl ⟨width, off, v, rest, e, rfl, ha, hr, hd, by
              injection h with h; exact h.symm⟩)))
        | arg k =>
          simp only [hr, writeRegister] at h
          exact .inr (.inr (.inr (.inr (.inl ⟨width, off, v, rest, k, rfl, ha, hr, by
            injection h with h; exact h.symm⟩))))
        | _ =>
          simp only [hr, writeRegister] at h
          exact .inr (.inr (.inr (.inr (.inr (.inl ⟨width, off, v, rest, rfl, ha, by
            injection h with h; exact h.symm⟩)))))
    | setPayload p =>
      rw [step_event hh] at h
      exact .inr (.inr (.inr (.inr (.inr (.inr (.inl ⟨p, rest, rfl, by injection h with h; exact h.symm⟩))))))
    | setSource p =>
      rw [step_event hh] at h
      exact .inr (.inr (.inr (.inr (.inr (.inr (.inr ⟨p, rest, rfl, by injection h with h; exact h.symm⟩))))))

/-- A run takes one step and goes on. -/
theorem run_next {s t : State} {k : Nat} (h : step s = .next t) :
    Host.Core.run core (k + 1) s = Host.Core.run core k t := by
  simp only [Host.Core.run]
  rw [show core.step s = .next t from h]

/-- A run ends at a refused step. -/
theorem run_refused {s : State} {k : Nat} {r : Refusal} (h : step s = .refused r) :
    Host.Core.run core (k + 1) s = .refused r := by
  simp only [Host.Core.run]
  rw [show core.step s = .refused r from h]

end Sys2Proof.Laws
end

