-- ==== Sys2Proof/Tests/Slice0.lean ====
section
/-! SUPPORT. Tests: ill-formed words refused, a written-out word of every operation decoded, the vectors of
95_test_vectors.md on single operations, and for every obligation with premises a state that meets them. The expected
values are the spec's own; each docstring names the vector. -/

namespace Sys2Proof.Tests

open Machine Laws

/-! ### Small states -/

/-- 95_test_vectors.md's conventions: a MAX_CHUNK of the test's choice, the command bytes and the command level at
their defaults. -/
def params (m : PNat) : Params :=
  { maxChunk := m, hasResetPin := true, tRst1 := 10, tRst2 := 20, tRst3 := 30
    initSeq := [⟨0x11, [], 120⟩, ⟨0x29, [], 0⟩] }

/-- The 2 x 2 source of V-F11. -/
def source : SourcePort :=
  { width := 2, height := 2, pixels := [[⟨255, 0, 0⟩, ⟨0, 255, 0⟩], [⟨0, 0, 255⟩, ⟨255, 255, 255⟩]], beyond := ⟨9, 9, 9⟩ }

/-- A constructed block with black grids, LAST_MS = 100, payload bytes 00 01 02 03 04 and every draw ok. -/
def block : State :=
  { State.constructed (params 4) (fun _ => 0) (fun _ => 0) (fun _ => 0) 100 ⟨[0, 1, 2, 3, 4], 0xEE⟩ source ⟨[], true⟩
      ⟨[], 0⟩ with
    cur := Grid.const 0, prev := Grid.const 0 }

/-- The block with its three operand registers written. -/
def withArgs (a b c : Word) (s : State) : State := { s with arg1 := ⟨a, true⟩, arg2 := ⟨b, true⟩, arg3 := ⟨c, true⟩ }

/-- The block READY with its operand registers written. -/
def ready (a b c : Word) : State := { withArgs a b c block with proto := .ready }

/-- The same state with other draws of the I/O oracle. -/
def drawing (l : List Bool) (s : State) : State := { s with io := ⟨l, true⟩ }

/-- The state an operation leaves. -/
def after (i : Instr) (s : State) : State :=
  match exec i s with
  | .next t => t
  | .fault _ => s
  | .refused _ => s

/-- The state a host event leaves. -/
def afterEvent (e : HostEvent) (s : State) : State :=
  match step { s with host := [e] } with
  | .next t => t
  | .fault _ => s
  | .refused _ => s

/-- The eleven events `WIN` of 95_test_vectors.md. -/
def win (cs rs : List Byte) : List Event :=
  [.pin .dc false, .bus [0x2A], .pin .dc true, .bus cs, .pin .dc false, .bus [0x2B], .pin .dc true, .bus rs,
    .pin .dc false, .bus [0x2C], .pin .dc true]

/-- 00_scope.md R6: the defaults of the command bytes and of the command level, taken where a configuration names
none, and overridden where it names one. -/
theorem test_parameter_defaults (m : PNat) :
    (params m).cmdCaset = 0x2A ∧ (params m).cmdRaset = 0x2B ∧ (params m).cmdRamwr = 0x2C ∧
      (params m).dcCmdLevel = false ∧
      ({ params m with cmdCaset := 0x15, dcCmdLevel := true } : Params).cmdCaset = 0x15 ∧
      ({ maxChunk := m, hasResetPin := false, tRst1 := 0, tRst2 := 0, tRst3 := 0, initSeq := [], dcCmdLevel := true } :
        Params) = { maxChunk := m, hasResetPin := false, tRst1 := 0, tRst2 := 0, tRst3 := 0, initSeq := [],
                    cmdCaset := 0x2A, cmdRaset := 0x2B, cmdRamwr := 0x2C, dcCmdLevel := true } := by
  refine ⟨rfl, rfl, rfl, rfl, rfl, rfl⟩

/-! ### Ill-formed words, one for each check of WellFormed.lean (V-E7 to V-E12) -/

theorem test_unknown_opcode_refused :
    [0x00000000, 0x00000003, 0x00000013, 0x00000023, 0x00000032, 0x00000044, 0x000000FF].all
      (fun w => decode w = .error .illegalOpcode) = true := by decide +kernel
theorem test_rsv0_refused : decode 0x00000231 = .error .reservedField := by decide
theorem test_rsv1_refused : decode 0x01000001 = .error .reservedField := by decide
theorem test_force_on_scan_refused : decode 0x00000130 = .error .reservedField := by decide
theorem test_cb_on_flush_refused : decode 0x00010031 = .error .reservedField := by decide
theorem test_checks_name_the_field :
    opcodeKnown 0x00000003 = false ∧ reservedZero 0x00000231 = false ∧ reservedZero 0x01000001 = false ∧
      forceAllowed 0x00000130 = false ∧ cbAllowed 0x00010031 = false := by decide
theorem test_illegal_words_from_construction :
    [0x00000000, 0x00000130, 0x00010031, 0x00000231, 0x01000001].all (fun w =>
      statusWord (afterEvent (.write 32 0x00 w) block) = 0x00010004) = true := by decide +kernel

/-! ### A written-out word of every operation (30_encoding.md R66, R69; V-E1 to V-E6, V-E13) -/

theorem test_decode_reset : decode 0x00000001 = .ok .reset := by decide
theorem test_decode_init : decode 0x00000002 = .ok .init := by decide
theorem test_decode_cvtPack : decode 0x00000010 = .ok .cvtPack := by decide
theorem test_decode_cvtUnpack : decode 0x00000011 = .ok .cvtUnpack := by decide
theorem test_decode_almostEq : decode 0x00000012 = .ok .almostEq := by decide
theorem test_decode_fillRect : decode 0x00000020 = .ok .fillRect := by decide
theorem test_decode_clear : decode 0x00000021 = .ok .clear := by decide
theorem test_decode_blit : decode 0x00000022 = .ok .blit := by decide
theorem test_decode_scan : decode 0x00000030 = .ok .scan := by decide
theorem test_decode_flush : decode 0x00000031 = .ok (.flush false) := by decide
theorem test_decode_flush_full : decode 0x00000131 = .ok (.flush true) := by decide
theorem test_decode_setWindow : decode 0x00000040 = .ok .setWindow := by decide
theorem test_decode_sendCmd : decode 0x00360041 = .ok (.sendCmd 0x36) := by decide
theorem test_decode_sendData : decode 0x00000042 = .ok .sendData := by decide
theorem test_decode_sendRawRegion : decode 0x00000043 = .ok .sendRawRegion := by decide
theorem test_table_word : decodeTableWord 32 0x00FF0041 = some (.sendCmd 0xFF) := by decide
theorem test_fetch_word : (State.reset.withFetchWord 32 0x131).host = [.write 32 0x00 0x00000131] := by decide

/-! ### The host interface (10_state.md) -/

/-- V-E21, R22. -/
theorem test_reads :
    [0x00, 0x04, 0x10, 0x1C, 0x20, 0x80].map (fun off => (afterEvent (.read 32 off) (ready 7 0 0)).readLog) =
      [[0], [7], [3], [4], [1], [0]] := by decide +kernel
/-- V-E14, V-E15, V-E18, V-E17. -/
theorem test_check_order :
    statusWord (after .fillRect block) = 0x00040004 ∧
      statusWord (after .clear (afterEvent (.write 32 0x04 5) block)) = 0x00040004 ∧
      statusWord (after .setWindow (withArgs 0 0 0 block)) = 0x00020004 ∧
      statusWord (after .setWindow block) = 0x00040004 := by decide +kernel
/-- V-E19, V-E20. -/
theorem test_halted :
    (after .reset (after .fillRect block)).proto = .uninitialized ∧
      (after .reset (after .fillRect block)).trace = [] ∧
      (afterEvent (.write 32 0x04 7) (after .fillRect block)).arg1.value = 7 := by decide +kernel

/-! ### Operations -/

/-- 40_color.md R86's example, V-F rows (8, 4, 8) and ignored bits. -/
theorem test_cvtPack :
    [0x00563412, 0x00080408, 0x000000FF, 0xFF000000].map (fun a => (after .cvtPack (withArgs a 0 0 block)).result) =
      [0x0000AA11, 0x00002108, 0x000000F8, 0x00000000] := by decide +kernel
/-- The CVT_UNPACK rows 0xAA11, 0x2108, 0x1084, 0xABCD0000. -/
theorem test_cvtUnpack :
    [0x0000AA11, 0x00002108, 0x00001084, 0xABCD0000].map (fun a =>
      (after .cvtUnpack (withArgs a 0 0 block)).result) = [0x00573717, 0x000F070F, 0x00878387, 0] := by decide +kernel
/-- The ALMOST_EQ rows on both sides of each threshold. -/
theorem test_almostEq :
    [(0x00080000, 2), (0x00100000, 2), (0x00380028, 2), (0x00400028, 2), (0x20000000, 2), (0x40000000, 2),
      (0x00100008, 0), (0x12341234, 0), (0xFFFF0000, 63), (0xFFFF0000, 64), (0xFFFF0000, 0xFFFFFFFF)].map
      (fun p : Word × Word => (after .almostEq (withArgs p.1 p.2 0 block)).result) =
      [1, 0, 1, 0, 1, 0, 0, 1, 0, 1, 1] := by decide +kernel
/-- V-F1 at the corners of the rectangle. -/
theorem test_fillRect :
    [((0 : Fin WIDTH), (5 : Fin HEIGHT)), (239, 9), (0, 4), (239, 10)].map (fun p =>
      (after .fillRect (ready 0x00050000 0x000500F0 0x000000F8)).cur.cell p.1 p.2) = [0x00F8, 0x00F8, 0, 0] := by
  decide +kernel
/-- V-F5, V-F7, V-F3: the faults and the legal empty rectangle. -/
theorem test_fillRect_bounds :
    statusWord (after .fillRect (ready 0x000000C8 0x00010032 0)) = 0x00030007 ∧
      (after .fillRect (ready 0x0000FFFF 0x00010002 0)).faultCode = some .bounds ∧
      (after .fillRect (ready 0x000000F0 0x00050000 0)).fault = false := by decide +kernel
/-- V-F9. -/
theorem test_clear : (after .clear (ready 0 0 0xABCD1F00)).cur.cell 239 279 = 0x1F00 := by decide +kernel
/-- V-F11. -/
theorem test_blit :
    [((0 : Fin WIDTH), (0 : Fin HEIGHT)), (1, 0), (2, 0), (0, 1)].map (fun p =>
      (after .blit { ready 0 0x00010003 0 with cur := Grid.const 0x1111 }).cur.cell p.1 p.2) =
      [0x00F8, 0xE007, 0x1111, 0x1111] := by decide +kernel
/-- V-F12 on a grid of 0x1111. -/
theorem test_blit_offset :
    [((1 : Fin WIDTH), (1 : Fin HEIGHT)), (2, 1), (1, 2), (2, 2)].map (fun p =>
      (after .blit { ready 0x00010001 0x00020002 0x00000001 with cur := Grid.const 0x1111 }).cur.cell p.1 p.2) =
      [0xE007, 0x1111, 0xFFFF, 0x1111] := by decide +kernel
/-- V-F17: `hi8(N)` first on the wire. -/
theorem test_rawBytes : (rawBytes (Grid.const 0xAA11) 0 0).take 4 = [0x11, 0xAA, 0x11, 0xAA] := by decide +kernel
/-- V-S4. -/
theorem test_scan :
    (after .scan { block with
      cur := fillGrid 0 279 1 1 0x00F8 (fillGrid 0 0 1 1 0x00F8 (Grid.const 0)) }).result = 0x01170000 := by
  decide +kernel
/-- V-S8, V-S9, V-S7 on one row. -/
theorem test_row_tolerance :
    [0x2000, 0x4000, 0x0010].map (fun c => rowDirty (fillGrid 17 42 1 1 c (Grid.const 0)) (Grid.const 0) 42) =
      [false, true, true] := by decide +kernel
/-- V-W1 and V-W4. -/
theorem test_setWindow :
    (after .setWindow (ready 0 0x000A000A 0)).trace = win [0, 0, 0, 9] [0, 0x14, 0, 0x1D] ∧
      (after .setWindow (ready 0x00EC0005 0x00ED0006 0)).trace = win [0, 5, 0, 5] [1, 0, 1, 0] := by decide +kernel
/-- V-W5, V-W8. -/
theorem test_setWindow_faults :
    (after .setWindow (ready 0x0000000A 0x0005000A 0)).faultCode = some .bounds ∧
      statusWord (after .setWindow { ready 0 0x00010001 0 with proto := .resetting }) = 0x00020005 := by decide +kernel
/-- V-T2. -/
theorem test_sendCmd :
    (after (.sendCmd 0x2A) (withArgs 5 0 0 block)).trace =
      [.pin .dc false, .bus [0x2A], .pin .dc true, .bus [0, 1, 2, 3], .bus [4]] := by decide +kernel
/-- V-T12. -/
theorem test_sendCmd_fails :
    (after (.sendCmd 0x2A) (drawing [false] (withArgs 4 0 0 block))).trace = [.pinFail .dc false] ∧
      (after (.sendCmd 0x2A) (drawing [false] (withArgs 4 0 0 block))).dcLevel = .unknown := by decide +kernel
/-- V-T1 at L = 0, 4 and 5. -/
theorem test_sendData :
    [0, 4, 5].map (fun l => (after .sendData (withArgs l 0 0 block)).trace) =
      [[.pin .dc true], [.pin .dc true, .bus [0, 1, 2, 3]], [.pin .dc true, .bus [0, 1, 2, 3], .bus [4]]] := by
  decide +kernel
/-- V-T11, then V-E22. -/
theorem test_sendData_fails :
    (after .sendData (drawing [true, true, false] (withArgs 5 0 0 block))).trace =
        [.pin .dc true, .bus [0, 1, 2, 3], .busFail [4]] ∧
      statusWord (after .sendData (drawing [true, true, false] (withArgs 5 0 0 block))) = 0x00000100 ∧
      (after .cvtPack (after .sendData (drawing [true, true, false] (withArgs 5 0 0 block)))).err = .ok := by
  decide +kernel
/-- V-T7 with the payload 00 01 02 03, and V-T8. -/
theorem test_sendRawRegion :
    (after .sendRawRegion (ready 0x0000000A 0x00010002 0)).trace =
        win [0, 0x0A, 0, 0x0B] [0, 0x14, 0, 0x14] ++ [.pin .dc true, .bus [0, 1, 2, 3]] ∧
      (after .sendRawRegion (ready 0 0x00010000 0)).faultCode = some .bounds := by decide +kernel
/-- V-P1 and V-P2. -/
theorem test_reset :
    (after .reset block).trace = [.pin .rst true, .delay 10, .pin .rst false, .delay 20, .pin .rst true, .delay 30] ∧
      (after .reset block).proto = .resetting ∧
      (after .reset { block with cfg := { params 4 with hasResetPin := false } }).trace = [] := by decide +kernel
/-- V-P3. -/
theorem test_init :
    (after .init { block with proto := .resetting }).trace =
        [.pin .dc false, .bus [0x11], .pin .dc true, .delay 120, .pin .dc false, .bus [0x29], .pin .dc true] ∧
      (after .init { block with proto := .resetting }).proto = .ready := by decide +kernel
/-- V-P6, V-P7. -/
theorem test_init_fails :
    statusWord (after .init (drawing [true, true, true, true, false] { block with proto := .resetting })) = 0x00000102 ∧
      (after .init (after .init (drawing [true, true, true, true, false] { block with proto := .resetting }))).faultCode =
        some .state := by decide +kernel
/-- V-P11, V-P12, V-P13 on the sample. -/
theorem test_updateFps :
    [130, 100, 100 + 2 ^ 33].map (fun t => ({ block with clock := ⟨[t], 0⟩ } : State).updateFps.fpsElapsed) =
      [30, 1, 0xFFFFFFFF] := by decide +kernel
/-- V-P14 at the first write, V-P4's STATE fault for FLUSH. -/
theorem test_flush_stops :
    (after (.flush true) (drawing [false] (ready 0 0 0))).trace = [.pinFail .dc false] ∧
      statusWord (after (.flush true) (drawing [false] (ready 0 0 0))) = 0x00000103 ∧
      statusWord (after (.flush false) block) = 0x00020004 := by decide +kernel
/-- V-W9 and V-W10: FLUSH's windows, and 30_encoding.md R70's byte counts. -/
theorem test_flush_window :
    (emitWindow (params 4) 0 5 240 10).map Action.event = win [0, 0, 0, 0xEF] [0, 0x19, 0, 0x1D] ∧
      (emitWindow (params 4) 0 236 240 280).map Action.event = win [0, 0, 0, 0xEF] [1, 0, 1, 0x2B] ∧
      flushSent (some (5, 9)) = 2400 ∧ flushSent (some (0, Fin.last 279)) = 0x00020D00 := by decide +kernel

/-! ### The assembler (30_encoding.md R77, V-E4, V-E5) and the wire stream (00_scope.md R12) -/

theorem test_assemble_fillRect :
    assembleText "FILL_RECT 0, 5, 240, 5, 0x00F8 ; red" =
      some [.write 32 0x04 0x00050000, .write 32 0x08 0x000500F0, .write 32 0x0C 0x000000F8, .write 32 0x00 0x20] := by
  decide +kernel
theorem test_assemble_others :
    assembleText "SEND_CMD 0x36, 1" = some [.write 32 0x04 1, .write 32 0x00 0x00360041] ∧
      assembleText "ALMOST_EQ 0x0000, 0x0008, 2" =
        some [.write 32 0x04 0x00080000, .write 32 0x08 2, .write 32 0x00 0x12] ∧
      assembleText "READ STATUS" = some [.read 32 0x10] ∧ assembleText "CLEAR 65536" = none := by decide +kernel
theorem test_wireStream :
    wireStream [.pin .dc false, .bus [0x2A], .pin .dc true, .bus [1], .delay 3, .bus [2]] =
      [(.low, 0x2A), (.high, 1), (.high, 2)] := by decide +kernel
theorem test_fpsReading : fpsReading block = none := by simp [fpsReading, block, State.constructed]
theorem test_zero_chunk : construct 0 (params 4) (fun _ => 0) (fun _ => 0) (fun _ => 0) 0 ⟨[], 0⟩ source ⟨[], true⟩
    ⟨[], 0⟩ = none := rfl

/-! ### Witnesses: for every obligation with premises, a state and operands that meet all of them -/

/-- The block with one host event pending. -/
def pending (e : HostEvent) (s : State) : State := { s with host := [e] }

theorem next_after (i : Instr) (s : State) : exec i s = .next (after i s) := by
  rw [after, exec_eq]

theorem accepted_of_written {i : Instr} {s : State} (h : s.fault = false)
    (ha : (argsRead i).all (fun k => (s.arg k).written) = true) : Accepted i s :=
  ⟨h, by simpa [ArgsWritten, List.all_eq_true] using ha⟩

theorem ready_accepted (i : Instr) (a b c : Word) : Accepted i (ready a b c) :=
  ⟨rfl, fun k _ => by cases k <;> rfl⟩

theorem ready_ioAllOk (a b c : Word) : IoAllOk (ready a b c) := ⟨(by intro x hx; cases hx), rfl⟩

theorem black_clean (y : Fin HEIGHT) : ¬ RowDirty (Grid.const 0) (Grid.const 0) y := by
  rintro ⟨x, hx⟩
  simp [almostEq] at hx

theorem witness_EveryWordIsOneInstructionOrIllegal :
    (∃ r ∈ opcodeTable, r.covers 0x00000131 = true) ∧ ∀ r ∈ opcodeTable, r.covers 0x00000130 = false := by decide

theorem witness_IllegalCommandWordRaisesIllegalOp (w : Word)
    (h : w ∈ [0x00000000, 0x000000FF, 0x00000130, 0x00010031, 0x00000231, (0x01000001 : Word)]) :
    (pending (.write 32 0x00 w) block).host = [.write 32 0x00 w] ∧ block.fault = false ∧ legalWord w = false := by
  refine ⟨rfl, rfl, ?_⟩
  simp only [List.mem_cons, List.not_mem_nil, or_false] at h
  rcases h with rfl | rfl | rfl | rfl | rfl | rfl <;> decide

theorem witness_StepRunsTheDecodedInstruction :
    (pending (.write 32 0x00 0x131) block).host = [.write 32 0x00 0x131] ∧ decode 0x131 = .ok (.flush true) :=
  ⟨rfl, by decide⟩

theorem witness_IdleBlockStaysAsItIs : block.host = [] := rfl

theorem witness_PortContentsAreTheHosts :
    (pending (.setPayload ⟨[1], 0⟩) block).host = [.setPayload ⟨[1], 0⟩] ∧
      (pending (.setSource source) block).host = [.setSource source] := ⟨rfl, rfl⟩

/-- Every offset of R16, and the reserved ones at both ends. -/
theorem witness_ReadReturnsTheRegisterAndChangesNothing (off : Nat)
    (h : off ∈ [0x00, 0x04, 0x08, 0x0C, 0x10, 0x14, 0x18, 0x1C, 0x20, 0x24, 0xFC]) :
    (pending (.read 32 off) block).host = [.read 32 off] ∧ off % 4 = 0 ∧ off ≤ 0xFF := by
  refine ⟨rfl, ?_⟩
  revert off; decide

theorem witness_WriteToReadOnlyOffsetIsIgnored (off : Nat) (h : off ∈ [0x10, 0x14, 0x18, 0x1C, 0x20, 0x24, 0xFC]) :
    (pending (.write 32 off 7) block).host = [.write 32 off 7] ∧ off % 4 = 0 ∧ 0x10 ≤ off ∧ off ≤ 0xFF := by
  refine ⟨rfl, ?_⟩
  revert off; decide

theorem witness_OperandRegistersHoldTheHostsLastWrite (k : ArgName) :
    (pending (.write 32 (argOffset k) 7) block).host = [.write 32 (argOffset k) 7] ∧
      (pending (.read 32 (argOffset k)) block).host = [.read 32 (argOffset k)] ∧
      exec .fillRect block = .next (after .fillRect block) ∧ block.fault = false ∧ ¬ ArgsWritten .fillRect block :=
  ⟨rfl, rfl, next_after _ _, rfl, fun h => by cases h .arg1 (by decide)⟩

theorem witness_AccessOutsideTheInterfaceIsRefused (p : Nat × Nat) (h : p ∈ [(8, 0x00), (64, 0x00), (32, 0x02), (32, 0x100)]) :
    (p.1 ≠ 32 ∨ p.2 % 4 ≠ 0 ∨ 0xFF < p.2) ∧ (pending (.read p.1 p.2) block).host = [.read p.1 p.2] ∧
      (pending (.write p.1 p.2 0) block).host = [.write p.1 p.2 0] := by
  refine ⟨?_, rfl, rfl⟩
  revert p; decide

theorem witness_FaultingOperationHasNoOtherEffect :
    exec .init block = .next (after .init block) ∧ block.fault = false ∧ (after .init block).fault = true :=
  ⟨next_after _ _, rfl, by decide +kernel⟩

/-- One state for each clause; the bounds at 241 and at 240 columns. -/
theorem witness_FirstCauseInOrderIsReported :
    (block.fault = false ∧ block.faultCode = none ∧ ¬ ArgsWritten .fillRect block) ∧
      (ArgsWritten .setWindow (withArgs 0 0 0 block) ∧ stateAllows .setWindow (withArgs 0 0 0 block).proto = false) ∧
      (ArgsWritten .fillRect (ready 1 0x000100F0 0) ∧ stateAllows .fillRect (ready 1 0x000100F0 0).proto = true ∧
        ¬ boundsAllow .fillRect (ready 1 0x000100F0 0)) ∧
      (ArgsWritten .fillRect (ready 0 0x000100F0 0) ∧ stateAllows .fillRect (ready 0 0x000100F0 0).proto = true ∧
        boundsAllow .fillRect (ready 0 0x000100F0 0)) := by
  refine ⟨⟨rfl, rfl, fun h => (by cases h .arg1 (by decide))⟩, ⟨fun k _ => (by cases k <;> rfl), rfl⟩,
    ⟨(ready_accepted _ _ _ _).2, rfl, ?_⟩, (ready_accepted _ _ _ _).2, rfl, ?_⟩
  · rw [← boundsOk_iff]; decide +kernel
  · rw [← boundsOk_iff]; decide +kernel

theorem witness_HaltedBlockIgnoresCommands (k : ArgName) :
    let s := after .init block
    s.fault = true ∧ (pending (.write 32 0x00 1) s).host = [.write 32 0x00 1] ∧
      (pending (.write 32 (argOffset k) 1) s).host = [.write 32 (argOffset k) 1] ∧
      (pending (.read 32 0x10) s).host = [.read 32 0x10] ∧ step (pending (.write 32 0x00 1) s) =
        .next { s with host := [], position := s.position + 1 } := by
  refine ⟨by decide +kernel, rfl, rfl, rfl, ?_⟩
  rw [step_write (rest := []) rfl (by decide)]
  rfl

theorem witness_FirstFaultCodeIsKept :
    step (after .init block) = .next (after .init block) ∧ (after .init block).faultCode = some .state :=
  ⟨step_idle rfl, by decide +kernel⟩

/-- Both clauses: a SEND_DATA whose second write fails, and one that fails nowhere. -/
theorem witness_IoErrorStopsAtTheFailingWrite :
    (drawing [true, false] (ready 5 0 0)).fault = false ∧
      exec .sendData (drawing [true, false] (ready 5 0 0)) = .next (after .sendData (drawing [true, false] (ready 5 0 0))) ∧
      (∃ u, exec .sendData { drawing [true, false] (ready 5 0 0) with io := { draws := [], beyond := true } } = .next u) ∧
      (after .sendData (drawing [true, false] (ready 5 0 0))).err = .ioError ∧
      (after .sendData (ready 5 0 0)).err = .ok :=
  ⟨rfl, next_after _ _, exec_next _ _, by decide +kernel, by decide +kernel⟩

theorem witness_SendDataFailsAtTheFirstFailingDraw :
    let s := drawing (List.replicate 1 true ++ false :: []) (ready 5 0 0)
    Accepted .sendData s ∧ s.io.draws = List.replicate 1 true ++ false :: [] ∧
      (dataEvents s.cfg ((List.range s.arg1.value.toNat).map (payloadByte s.payload)))[1]? = some (.bus [0, 1, 2, 3]) :=
  ⟨ready_accepted .sendData 5 0 0, rfl, by decide +kernel⟩

/-- The conversions, CLEAR and SCAN need only an accepted operation. -/
theorem witness_CvtPackResult : Accepted .cvtPack (ready 0x00FFFFFF 0 0) := ready_accepted _ _ _ _
theorem witness_CvtUnpackResult : Accepted .cvtUnpack (ready 0x0000FFFF 0 0) := ready_accepted _ _ _ _
theorem witness_AlmostEqResult : Accepted .almostEq (ready 0xFFFF0000 0xFFFFFFFF 0) := ready_accepted _ _ _ _
theorem witness_ClearWritesEveryCell : Accepted .clear (ready 0 0 0xFFFF) := ready_accepted _ _ _ _
theorem witness_ScanFindsTheDirtyRows : Accepted .scan block :=
  accepted_of_written rfl (by decide)

/-- The premises of the laws that have some: t = 64, and nonzero groups. -/
theorem witness_AlmostEqLaws : 64 ≤ 64 ∧ (1 : BitVec 5) ≠ 0 ∧ (31 : BitVec 5) ≠ 0 ∧ (1 : BitVec 6) ≠ 0 := by decide

/-- The rectangle that is the whole buffer. -/
theorem witness_FillRectWritesExactlyTheRectangle :
    Accepted .fillRect (ready 0 0x011800F0 0xFFFF) ∧ boundsAllow .fillRect (ready 0 0x011800F0 0xFFFF) :=
  ⟨ready_accepted _ _ _ _, by rw [← boundsOk_iff]; decide +kernel⟩

theorem witness_ClearIsTheFullFill :
    Accepted .fillRect (ready 0 0x011800F0 0xFFFF) ∧ (ready 0 0x011800F0 0xFFFF).arg1.value = 0 ∧
      (ready 0 0x011800F0 0xFFFF).arg2.value = 0x011800F0 ∧ block.fault = false ∧ block.faultCode = none :=
  ⟨ready_accepted _ _ _ _, rfl, rfl, rfl, rfl⟩

/-- A destination that ends at the last cell. -/
theorem witness_BlitWritesTheOverlap :
    Accepted .blit (ready 0x011700EF 0x00010001 0) ∧ boundsAllow .blit (ready 0x011700EF 0x00010001 0) :=
  ⟨ready_accepted _ _ _ _, by rw [← boundsOk_iff]; decide +kernel⟩

/-- The last row alone, and its last cell. -/
theorem witness_RawBytesAreTheCellsInOrder :
    279 ≤ 279 ∧ 239 < (279 - 279 + 1) * 240 ∧ ((67199 : Fin NCELLS)).val = 240 * 279 + 239 := by decide +kernel

theorem witness_SetWindowSendsTheInclusiveBounds :
    Accepted .setWindow (ready 0 0x011800F0 0) ∧ (ready 0 0x011800F0 0).proto = .ready ∧
      boundsAllow .setWindow (ready 0 0x011800F0 0) ∧ IoAllOk (ready 0 0x011800F0 0) :=
  ⟨ready_accepted _ _ _ _, rfl, by rw [← boundsOk_iff]; decide +kernel, ready_ioAllOk _ _ _⟩

theorem witness_SendCmdFramesTheCommand : Accepted (.sendCmd 0xFF) (ready 5 0 0) ∧ IoAllOk (ready 5 0 0) :=
  ⟨ready_accepted _ _ _ _, ready_ioAllOk _ _ _⟩

/-- MAX_CHUNK + 1 bytes. -/
theorem witness_SendDataChunksThePayload : Accepted .sendData (ready 5 0 0) ∧ IoAllOk (ready 5 0 0) :=
  ⟨ready_accepted _ _ _ _, ready_ioAllOk _ _ _⟩

theorem witness_SendRawRegionBypassesTheBuffer :
    Accepted .sendRawRegion (ready 0x011700EF 0x00010001 0) ∧ (ready 0x011700EF 0x00010001 0).proto = .ready ∧
      boundsAllow .sendRawRegion (ready 0x011700EF 0x00010001 0) ∧ IoAllOk (ready 0x011700EF 0x00010001 0) :=
  ⟨ready_accepted _ _ _ _, rfl, by rw [← boundsOk_iff]; decide +kernel, ready_ioAllOk _ _ _⟩

theorem witness_ChunkBoundariesCarryNoMeaning :
    ∃ t u, IoAllOk (ready 5 0 0) ∧ exec .sendData (ready 5 0 0) = .next t ∧
      exec .sendData { ready 5 0 0 with cfg := { (ready 5 0 0).cfg with maxChunk := 1 } } = .next u ∧
      t.trace ≠ u.trace :=
  ⟨after .sendData (ready 5 0 0), after .sendData { ready 5 0 0 with cfg := { (ready 5 0 0).cfg with maxChunk := 1 } },
    ready_ioAllOk _ _ _, next_after _ _, next_after _ _, by decide +kernel⟩

/-- With a reset line and without one. -/
theorem witness_ResetDrivesTheResetLine (b : Bool) :
    let s : State := { ready 0 0 0 with cfg := { params 4 with hasResetPin := b } }
    Accepted .reset s ∧ IoAllOk s ∧ s.cfg.hasResetPin = b :=
  ⟨ready_accepted .reset 0 0 0, ready_ioAllOk 0 0 0, rfl⟩

/-- With a sequence and with an empty one. -/
theorem witness_InitSendsTheSequenceAndBecomesReady (l : List InitEntry) :
    let s : State := { ready 0 0 0 with proto := .resetting, cfg := { params 4 with initSeq := l } }
    Accepted .init s ∧ s.proto = .resetting ∧ IoAllOk s :=
  ⟨ready_accepted .init 0 0 0, rfl, ready_ioAllOk 0 0 0⟩

theorem witness_ConfiguringOnlyAfterAFailedInit :
    let s := drawing [true, false] { block with proto := .resetting }
    s.fault = false ∧ s.faultCode = none ∧ s.proto = .resetting ∧ exec .init s = .next (after .init s) ∧
      (after .init s).err = .ioError ∧ (after .init s).proto = .configuring :=
  ⟨rfl, rfl, rfl, next_after _ _, by decide +kernel, by decide +kernel⟩

theorem witness_ForcedFlushSendsTheWholeFrame :
    Accepted (.flush true) (ready 0 0 0) ∧ (ready 0 0 0).proto = .ready ∧ IoAllOk (ready 0 0 0) :=
  ⟨ready_accepted _ _ _ _, rfl, ready_ioAllOk _ _ _⟩

/-- The READY block with rows 5 to 9 of cur red (S3). -/
def redRows : State := { ready 0 0 0 with cur := fillGrid 0 5 240 5 0x00F8 (Grid.const 0) }

theorem redRows_dirty (y : Fin HEIGHT) : RowDirty redRows.cur redRows.prev y ↔ 5 ≤ y.val ∧ y.val ≤ 9 := by
  have hc : ∀ x, redRows.cur.cell x y = if 5 ≤ y.val ∧ y.val ≤ 9 then 0x00F8 else 0 := by
    intro x
    have hx : x.val < 240 := x.isLt
    show (fillGrid 0 5 240 5 0x00F8 (Grid.const 0)).cell x y = _
    rw [cell_fillGrid, Grid.cell_const]
    refine if_congr ?_ rfl rfl
    rw [inRect_iff]
    omega
  have hp : ∀ x, redRows.prev.cell x y = 0 := fun x => Grid.cell_const 0 x y
  unfold RowDirty
  simp only [hc, hp]
  split
  · rename_i h; exact ⟨fun _ => h, fun _ => ⟨0, by decide⟩⟩
  · rename_i h; simp [almostEq, h]

theorem witness_PartialFlushSendsTheDirtyRows :
    Accepted (.flush false) redRows ∧ redRows.proto = .ready ∧ IoAllOk redRows ∧
      RowDirty redRows.cur redRows.prev 5 ∧ RowDirty redRows.cur redRows.prev 9 ∧
      ∀ y, RowDirty redRows.cur redRows.prev y → 5 ≤ y ∧ y ≤ 9 :=
  ⟨accepted_of_written rfl rfl, rfl, ⟨(by intro x hx; cases hx), rfl⟩, (redRows_dirty 5).mpr ⟨by decide, by decide⟩,
    (redRows_dirty 9).mpr ⟨by decide, by decide⟩, fun y h => (redRows_dirty y).mp h⟩

theorem witness_EmptyFlushStillCopies :
    Accepted (.flush false) (ready 0 0 0) ∧ (ready 0 0 0).proto = .ready ∧
      ∀ y, ¬ RowDirty (ready 0 0 0).cur (ready 0 0 0).prev y :=
  ⟨ready_accepted _ _ _ _, rfl, black_clean⟩

theorem witness_FailedFlushKeepsTheSnapshot :
    let s := drawing [true, false] (ready 0 0 0)
    s.fault = false ∧ exec (.flush true) s = .next (after (.flush true) s) ∧ (after (.flush true) s).err = .ioError :=
  ⟨rfl, next_after _ _, by decide +kernel⟩

/-- A FLUSH that succeeds: the state it leaves, with the facts the statements on it need. -/
theorem successful_flush : ∃ t, exec (.flush true) (ready 0 0 0) = .next t ∧ t.err = .ok ∧ t.fault = false ∧
    t.proto = .ready := by
  obtain ⟨io, h⟩ := exec_allOk (i := .flush true) (s := ready 0 0 0) (ready_accepted _ _ _ _) rfl (ready_ioAllOk _ _ _)
  exact ⟨_, h, concluded_err _ _ _, rfl, rfl⟩

theorem witness_OnlyFlushSamplesTheTime :
    (ready 0 0 0).fault = false ∧ (ready 0 0 0).proto = .ready ∧
      (∃ t, exec (.flush true) (ready 0 0 0) = .next t ∧ t.err = .ok) ∧
      (∃ t, exec (.flush true) (drawing [false] (ready 0 0 0)) = .next t ∧ (t.fault = true ∨ t.err = .ioError)) ∧
      (∀ f, Instr.scan ≠ .flush f) ∧ ∃ t, exec .scan (ready 0 0 0) = .next t :=
  ⟨rfl, rfl, let ⟨t, h, he, _⟩ := successful_flush; ⟨t, h, he⟩, ⟨_, next_after _ _, .inr (by decide +kernel)⟩,
    by simp, exec_next _ _⟩

/-- A successful FLUSH, a RESET-free list of operations that leaves `cur` alone, and the second FLUSH. -/
theorem witness_SecondFlushSendsNothing :
    ∃ t u v, (ready 0 0 0).fault = false ∧ (ready 0 0 0).proto = .ready ∧
      exec (.flush true) (ready 0 0 0) = .next t ∧ t.err = .ok ∧ (∀ i ∈ [Instr.cvtPack], drawsCur i = false) ∧
      runOps [.cvtPack] t = some u ∧ u.fault = false ∧ u.proto = .ready ∧ exec (.flush false) u = .next v := by
  obtain ⟨io, h⟩ := exec_allOk (i := .flush true) (s := ready 0 0 0) (ready_accepted _ _ _ _) rfl (ready_ioAllOk _ _ _)
  exact ⟨_, after .cvtPack (concluded (.flush true) (ready 0 0 0).clearErr io), _, rfl, rfl, h, concluded_err _ _ _,
    by simp [drawsCur], by simp only [runOps, next_after], rfl, rfl, next_after _ _⟩

/-- White over black: rows 0 and 279 are dirty; a forced FLUSH that succeeds; the full fill. -/
theorem witness_FullAndPartialFlushAgree :
    (let s : State := { ready 0 0 0 with cur := Grid.const 0xFFFF }
     RowDirty s.cur s.prev 0 ∧ RowDirty s.cur s.prev (Fin.last 279)) ∧
      (∃ t, exec (.flush true) (ready 0 0 0) = .next t ∧ t.err = .ok) ∧
      (let s := ready 0 0x011800F0 0xFFFF
       Accepted .fillRect s ∧ s.arg1.value = 0 ∧ s.arg2.value = 0x011800F0 ∧
        s.arg3.value.toNat % 65536 = (0xFFFF : PackedColor).toNat ∧ ∃ t, exec .fillRect s = .next t) :=
  ⟨⟨⟨0, by decide +kernel⟩, ⟨0, by decide +kernel⟩⟩, let ⟨t, h, he, _⟩ := successful_flush; ⟨t, h, he⟩,
    ready_accepted _ _ _ _, rfl, rfl, rfl, exec_next _ _⟩

theorem witness_FlushPostState :
    ∃ t, (ready 0 0 0).fault = false ∧ (ready 0 0 0).proto = .ready ∧ exec (.flush true) (ready 0 0 0) = .next t ∧
      t.err = .ok :=
  let ⟨t, h, he, _⟩ := successful_flush; ⟨t, rfl, rfl, h, he⟩

theorem block_inv (e : HostEvent) : BlockInv (pending e block) :=
  ⟨rfl, rfl, rfl, fun _ h => (by cases h), fun h => (by cases h)⟩

theorem witness_EveryStepKeepsTheInvariant :
    ∃ t, BlockInv (pending (.write 32 0x00 1) block) ∧ step (pending (.write 32 0x00 1) block) = .next t ∧
      t.trace ≠ [] :=
  ⟨after .reset (served [] (pending (.write 32 0x00 1) block)), block_inv _, by
    rw [step_write (rest := []) rfl (by decide)]; exact next_after .reset _, by decide +kernel⟩

theorem witness_TraceOnlyGrows : ∃ t, step (pending (.write 32 0x00 1) block) = .next t :=
  let ⟨t, _, h, _⟩ := witness_EveryStepKeepsTheInvariant; ⟨t, h⟩

theorem witness_ProtocolTransitions :
    (block.fault = false ∧ exec .reset block = .next (after .reset block) ∧
      (after .reset block).proto ≠ block.proto) ∧
      (let s : State := { block with proto := .resetting }
       s.fault = false ∧ s.proto = .resetting ∧ exec .init s = .next (after .init s) ∧ (after .init s).err = .ok) ∧
      (after .init (drawing [false] { block with proto := .resetting })).err = .ioError :=
  ⟨⟨rfl, next_after _ _, by decide +kernel⟩, ⟨rfl, rfl, next_after _ _, by decide +kernel⟩, by decide +kernel⟩

theorem witness_WhoWritesTheGrids :
    (∃ t, exec .cvtPack block = .next t) ∧ drawsCur .cvtPack = false ∧ (∀ f, Instr.cvtPack ≠ .flush f) ∧
      (∃ t, exec (.flush true) block = .next t) ∧ ∃ t, exec .sendRawRegion block = .next t :=
  ⟨exec_next _ _, rfl, by simp, exec_next _ _, exec_next _ _⟩

theorem witness_WhoWritesTheResult :
    (∃ t, exec .clear block = .next t) ∧ definesResult .clear = false ∧
      (exec .cvtPack block = .next (after .cvtPack block) ∧ (after .cvtPack block).fault = true) ∧
      (let s := drawing [false] (ready 0 0 0)
       s.fault = false ∧ exec (.flush true) s = .next (after (.flush true) s) ∧ (after (.flush true) s).err = .ioError) :=
  ⟨exec_next _ _, rfl, ⟨next_after _ _, by decide +kernel⟩, rfl, next_after _ _, by decide +kernel⟩

theorem witness_WhatNoOperationChanges : (∃ t, exec .scan block = .next t) ∧ emitsEvents .scan = false :=
  ⟨exec_next _ _, rfl⟩

/-- V-F8: ARG3[31:16] differs. -/
theorem witness_UnnamedOperandBitsHaveNoEffect :
    let s := ready 0 0x00010001 0x000000F8
    (0xABCD00F8 : Word) ≠ s.arg3.value ∧
      (0xABCD00F8 : Word) &&& operandMask .fillRect .arg3 = s.arg3.value &&& operandMask .fillRect .arg3 ∧
      s.arg1.value &&& operandMask .fillRect .arg1 = s.arg1.value &&& operandMask .fillRect .arg1 ∧
      s.arg2.value &&& operandMask .fillRect .arg2 = s.arg2.value &&& operandMask .fillRect .arg2 ∧
      ∃ t u, exec .fillRect s = .next t ∧
        exec .fillRect { s with
          arg1 := ⟨s.arg1.value, s.arg1.written⟩, arg2 := ⟨s.arg2.value, s.arg2.written⟩,
          arg3 := ⟨0xABCD00F8, s.arg3.written⟩ } = .next u :=
  ⟨by decide +kernel, by decide +kernel, rfl, rfl, _, _, next_after _ _, next_after _ _⟩

theorem witness_EveryStepKeepsTheClockLaw :
    let s := pending (.write 32 0x00 0x131) { ready 0 0 0 with clock := ⟨[130, 160], 5⟩ }
    ClockLaw s ∧ ∃ t, step s = .next t := by
  refine ⟨by simp [ClockLaw, pending, ready, withArgs, block, State.constructed], ?_⟩
  rw [step_write (rest := []) rfl (by decide)]
  exact exec_next (.flush true) _

/-- The pixel in the last cell. -/
theorem witness_AssembledSetPixWritesOneCell :
    let s : State := { block with
      host := assemble (.setPix (BitVec.ofNat 16 (239 : Fin WIDTH)) (BitVec.ofNat 16 (279 : Fin HEIGHT)) 0x00F8) ++ [] }
    s.fault = false ∧ s.host =
      assemble (.setPix (BitVec.ofNat 16 (239 : Fin WIDTH)) (BitVec.ofNat 16 (279 : Fin HEIGHT)) 0x00F8) ++ [] :=
  ⟨rfl, rfl⟩

theorem witness_AssembledOperationWritesItsOperands :
    let s : State := { block with host := assemble (.clear 0x1F00) ++ [] }
    (∀ off v, AsmLine.clear 0x1F00 ≠ .writeReg off v) ∧ s.fault = false ∧ s.faultCode = none ∧
      s.host = assemble (.clear 0x1F00) ++ [] ∧
      ∃ t, Host.Core.run core (assemble (.clear 0x1F00)).length s = .next t := by
  refine ⟨by simp, rfl, rfl, rfl, ?_⟩
  show ∃ t, Host.Core.run core 2 _ = .next t
  rw [run_next (t := (served [writeOp .clear] { block with host := assemble (.clear 0x1F00) ++ [] }).setArg .arg3 0x1F00)
    (by rw [step_write (rest := [writeOp .clear]) rfl (by decide)]; rfl)]
  obtain ⟨t, ht⟩ := exec_next .clear (served []
    ((served [writeOp .clear] { block with host := assemble (.clear 0x1F00) ++ [] }).setArg .arg3 0x1F00))
  exact ⟨t, run_next (k := 0) (t := t) (by rw [step_write (rest := []) rfl (by decide)]; exact ht)⟩

end Sys2Proof.Tests
end

section
/-! PROOFS. The statements of 00_scope.md: construction (R7), the trace that only grows (R11), and chunk boundaries
without meaning for the panel (R12, 20_memory.md R63, 44_transmit.md R126). -/

namespace Sys2Proof.Proofs

open Machine Laws

/-! ### Construction (00_scope.md R7) -/

theorem requestParams_zero (p : Params) : requestParams 0 p = none := rfl

theorem requestParams_succ (n : Nat) (p : Params) :
    requestParams (n + 1) p = some { p with maxChunk := n.succPNat } := rfl

/-- Settles O14. -/
theorem zeroMaxChunkIsNotConstructed : Obligations.ZeroMaxChunkIsNotConstructed := by
  intro n p curDraw prevDraw argDraw now payload source io clock
  constructor
  · rw [construct, requestParams_zero, Option.map_none]
  · rw [construct, requestParams_succ, Option.map_some]
    exact ⟨_, rfl, n.succPNat_coe⟩

/-! ### The trace only grows (00_scope.md R11) -/

theorem firstWrite_trace (i : Instr) (s : State) : (firstWrite i s).trace = s.trace := by
  cases i <;> rfl

@[simp] theorem ran_trace (s : State) (es : List Event) (io : IoOracle) :
    (s.ran es io).trace = s.trace ++ es := rfl

@[simp] theorem served_trace (rest : List HostEvent) (s : State) : (served rest s).trace = s.trace := rfl

/-- An operation appends the events of the primitives it performed, a failing last one included, or nothing. -/
theorem exec_trace_prefix {i : Instr} {s t : State} (h : exec i s = .next t) : s.trace <+: t.trace := by
  rcases exec_cases h with ⟨-, rfl⟩ | ⟨-, -, rfl⟩ | ⟨-, -, c, -, rfl⟩ | ⟨-, -, -, io, rfl⟩ |
    ⟨-, -, -, before, a, after, io, -, -, rfl⟩
  · exact List.prefix_rfl
  · exact List.prefix_rfl
  · exact List.prefix_rfl
  · rw [concluded_trace]
    exact List.prefix_append _ _
  · rw [setIoError_trace, ran_trace, firstWrite_trace]
    exact List.prefix_append _ _

/-- Settles O51: only an operation appends events; every other host event leaves the trace as it is. -/
theorem traceOnlyGrows : Obligations.TraceOnlyGrows := by
  intro s t h
  rcases step_cases h with ⟨-, rfl⟩ | ⟨_, _, rest, -, -, rfl⟩ | ⟨_, _, _, rest, i, -, -, -, -, hexec⟩ |
    ⟨_, _, _, rest, _, -, -, -, -, rfl⟩ | ⟨_, _, v, rest, k, -, -, -, rfl⟩ | ⟨_, _, _, rest, -, -, rfl⟩ |
    ⟨p, rest, -, rfl⟩ | ⟨p, rest, -, rfl⟩
  · exact List.prefix_rfl
  · simp
  · exact served_trace rest s ▸ exec_trace_prefix hexec
  · split <;> simp
  · simp
  · simp
  · simp
  · simp

/-! ### What every operation comes to, read forwards -/

/-- A halted block ignores the operation (60_exceptions.md R156). -/
theorem exec_halted {s : State} (i : Instr) (h : s.fault = true) : exec i s = .next s := by
  rw [exec_eq, accept_halted h]

/-- An operand that was never written (R155). -/
theorem exec_unwritten {i : Instr} {s : State} (h : s.fault = false) (ha : ¬ ArgsWritten i s) :
    exec i s = .next (raiseFault .unwrittenArg s.clearErr) := by
  rw [exec_eq, accept_unwritten h ha]

/-- A fault of the operation's own rule (R158, R159). -/
theorem exec_faulting {i : Instr} {s : State} {c : FaultCode} (ha : Accepted i s) (hc : faultOf i s = some c) :
    exec i s = .next (raiseFault c s.clearErr) := by
  have hc' : faultOf i s.clearErr = some c := by rw [← hc]; cases i <;> rfl
  rw [exec_eq, accept_written ha.1 ha.2, ruleOf_eq, hc']

/-! ### Traces that are the same to the panel (00_scope.md R12) -/

/-- Two runs of events that the panel cannot tell apart, whatever came before and whatever follows, and that leave the
same levels on both lines (10_state.md R29). -/
structure SamePanel (es es' : List Event) : Prop where
  view : ∀ l rest, panelViewFrom l (es ++ rest) = panelViewFrom l (es' ++ rest)
  levels : ∀ pin l, es.foldl (levelAfter pin) l = es'.foldl (levelAfter pin) l

theorem SamePanel.refl {es : List Event} : SamePanel es es where
  view _ _ := Eq.refl _
  levels _ _ := Eq.refl _

/-- A common first part of a trace hides nothing and reveals nothing. -/
theorem panelViewFrom_append_congr {es es' : List Event} (h : ∀ l, panelViewFrom l es = panelViewFrom l es')
    (first : List Event) (l : Level) : panelViewFrom l (first ++ es) = panelViewFrom l (first ++ es') := by
  induction first generalizing l with
  | nil => exact h l
  | cons e first ih =>
    cases e with
    | pin pin v => cases pin <;> simp [panelViewFrom, ih]
    | bus bytes => simp [panelViewFrom, ih]
    | delay ms => simp [panelViewFrom, ih]
    | pinFail pin v => simp [panelViewFrom, ih]
    | busFail bytes => simp [panelViewFrom, ih]

theorem SamePanel.append {as as' bs bs' : List Event} (ha : SamePanel as as') (hb : SamePanel bs bs') :
    SamePanel (as ++ bs) (as' ++ bs') where
  view l rest := by
    rw [List.append_assoc, List.append_assoc, ha.view]
    exact panelViewFrom_append_congr (fun l' => hb.view l' rest) as' l
  levels pin l := by rw [List.foldl_append, List.foldl_append, ha.levels, hb.levels]

theorem SamePanel.flatMap {α : Type} {f g : α → List Event} (h : ∀ a, SamePanel (f a) (g a)) (as : List α) :
    SamePanel (as.flatMap f) (as.flatMap g) := by
  induction as with
  | nil => exact .refl
  | cons a as ih => exact (h a).append ih

/-- Appended to the same trace, they give the same panel view. -/
theorem SamePanel.panelView_append {es es' : List Event} (h : SamePanel es es') (trace : List Event) :
    panelView (trace ++ es) = panelView (trace ++ es') :=
  panelViewFrom_append_congr (fun l => by simpa using h.view l []) trace .unknown

/-- Consecutive transfers are, to the panel, one transfer of all their bytes. -/
theorem panelViewFrom_bus (l : Level) (ws : List (List Byte)) (rest : List Event) :
    panelViewFrom l (ws.map .bus ++ rest) = ws.flatten.map (.byte l) ++ panelViewFrom l rest := by
  induction ws with
  | nil => rfl
  | cons w ws ih => simp [panelViewFrom, ih]

/-- The key fact: cut into slices of any two sizes, the same bytes reach the panel (44_transmit.md R126). -/
theorem samePanel_slices (m m' : PNat) (bytes : List Byte) :
    SamePanel ((slices m bytes).map .bus) ((slices m' bytes).map .bus) where
  view l rest := by
    rw [panelViewFrom_bus, panelViewFrom_bus, slices_flatten _ m.pos, slices_flatten _ m'.pos]
  levels pin l := by rw [level_slices, level_slices]

/-! ### The framed sequences at two chunk sizes -/

/-- The same parameters with another MAX_CHUNK. -/
def rechunkParams (m : PNat) (p : Params) : Params := { p with maxChunk := m }

theorem samePanel_sendCommand (m : PNat) (p : Params) (c : Byte) (params : List Byte) :
    SamePanel ((sendCommand p c params).map Action.event)
      ((sendCommand (rechunkParams m p) c params).map Action.event) := by
  rw [sendCommand_events, sendCommand_events]
  exact SamePanel.refl.append (samePanel_slices p.maxChunk m params)

theorem samePanel_sendDataFramed (m : PNat) (p : Params) (bytes : List Byte) :
    SamePanel ((sendDataFramed p bytes).map Action.event)
      ((sendDataFramed (rechunkParams m p) bytes).map Action.event) := by
  rw [sendDataFramed_events, sendDataFramed_events]
  exact (SamePanel.refl (es := [.pin .dc (!p.dcCmdLevel)])).append (samePanel_slices p.maxChunk m bytes)

theorem samePanel_emitWindow (m : PNat) (p : Params) (x0 y0 x1 y1 : Nat) :
    SamePanel ((emitWindow p x0 y0 x1 y1).map Action.event)
      ((emitWindow (rechunkParams m p) x0 y0 x1 y1).map Action.event) := by
  simp only [emitWindow, List.map_append]
  exact ((samePanel_sendCommand m p _ _).append (samePanel_sendCommand m p _ _)).append
    (samePanel_sendCommand m p _ _)

theorem samePanel_initActions (m : PNat) (p : Params) :
    SamePanel ((initActions p).map Action.event) ((initActions (rechunkParams m p)).map Action.event) := by
  simp only [initActions, List.map_flatMap]
  refine SamePanel.flatMap (fun e => ?_) p.initSeq
  simp only [initEntryActions, List.map_append]
  exact (samePanel_sendCommand m p _ _).append .refl

theorem samePanel_flushActions (m : PNat) (p : Params) (cur : Grid) (region : Option (Fin HEIGHT × Fin HEIGHT)) :
    SamePanel ((flushActions p cur region).map Action.event)
      ((flushActions (rechunkParams m p) cur region).map Action.event) := by
  cases region with
  | none => exact .refl
  | some rows =>
    simp only [flushActions, List.map_append]
    exact (samePanel_emitWindow m p _ _ _ _).append (samePanel_sendDataFramed m p _)

theorem samePanel_rawRegionActions (m : PNat) (p : Params) (port : PayloadPort) (x y w h : Nat) :
    SamePanel ((rawRegionActions p port x y w h).map Action.event)
      ((rawRegionActions (rechunkParams m p) port x y w h).map Action.event) := by
  simp only [rawRegionActions, List.map_append]
  exact (samePanel_emitWindow m p _ _ _ _).append (samePanel_sendDataFramed m p _)

/-! ### Operations at two chunk sizes -/

/-- The state with another MAX_CHUNK, trace and oracle: what may differ between two blocks that differ in MAX_CHUNK
alone and ran the same operation. -/
def rechunk (m : PNat) (trace : List Event) (io : IoOracle) (s : State) : State :=
  { s with cfg := rechunkParams m s.cfg, trace := trace, io := io }

/-- Every operation asks for primitives the panel cannot tell apart at the two sizes. -/
theorem samePanel_eventsOf (i : Instr) (m : PNat) (s : State) :
    SamePanel (eventsOf i s) (eventsOf i (rechunk m s.trace s.io s)) := by
  cases i with
  | reset => exact .refl
  | init => exact samePanel_initActions m s.cfg
  | flush f => exact samePanel_flushActions m s.cfg s.cur (flushRegion f s)
  | setWindow => exact samePanel_emitWindow m s.cfg _ _ _ _
  | sendCmd cb => exact samePanel_sendCommand m s.cfg cb _
  | sendData => exact samePanel_sendDataFramed m s.cfg _
  | sendRawRegion => exact samePanel_rawRegionActions m s.cfg s.payload _ _ _ _
  | _ => exact .refl

theorem firstWrite_rechunk (i : Instr) (m : PNat) (trace : List Event) (io : IoOracle) (s : State) :
    firstWrite i (rechunk m trace io s) = rechunk m trace io (firstWrite i s) := by
  cases i <;> rfl

theorem lastWrite_rechunk (i : Instr) (m : PNat) (trace trace' : List Event) (io io' : IoOracle) (s t : State) :
    lastWrite i (rechunk m trace io s) (rechunk m trace' io' t) = rechunk m trace' io' (lastWrite i s t) := by
  cases i <;> rfl

/-- Events that leave the same levels leave the same state but for the trace and the oracle. -/
theorem rechunk_ran {es es' : List Event} (h : SamePanel es es') (m : PNat) (trace : List Event) (io io' io'' : IoOracle)
    (s : State) :
    (rechunk m trace io s).ran es' io'' = rechunk m (trace ++ es') io'' (s.ran es io') := by
  simp only [State.ran, rechunk, h.levels]

/-- Run to its end, an operation leaves the same state at the two sizes, but for the trace and the oracle. -/
theorem concluded_rechunk (i : Instr) (m : PNat) (s : State) (io io' : IoOracle) :
    concluded i (rechunk m s.trace s.io s) io' =
      rechunk m (s.trace ++ eventsOf i (rechunk m s.trace s.io s)) io' (concluded i s io) := by
  rw [concluded, firstWrite_rechunk, rechunk_ran (samePanel_eventsOf i m s) m s.trace s.io io io', lastWrite_rechunk]
  rfl

/-- What O37 asks of the two states the operation leaves. -/
def AgreeButChunks (m : PNat) (t u : State) : Prop :=
  panelView u.trace = panelView t.trace ∧ u = rechunk m u.trace u.io t

/-- An operation that emits nothing keeps the two blocks' agreement. -/
theorem agreeButChunks_rechunk (m : PNat) (t : State) : AgreeButChunks m t (rechunk m t.trace t.io t) := ⟨rfl, rfl⟩

theorem agreeButChunks_concluded (i : Instr) (m : PNat) (s : State) (io io' : IoOracle) :
    AgreeButChunks m (concluded i s io) (concluded i (rechunk m s.trace s.io s) io') := by
  constructor
  · rw [concluded_trace, concluded_trace]
    exact ((samePanel_eventsOf i m s).panelView_append s.trace).symm
  · rw [concluded_rechunk i m s io io']
    rfl

/-- With every draw ok, an operation on two blocks that differ in MAX_CHUNK alone ends alike on both: ignored, in the
same fault, or run to its end. -/
theorem exec_agreeButChunks (i : Instr) (m : PNat) (s : State) (hio : IoAllOk s) :
    ∃ t u, exec i s = .next t ∧ exec i (rechunk m s.trace s.io s) = .next u ∧ AgreeButChunks m t u := by
  by_cases hf : s.fault = true
  · exact ⟨_, _, exec_halted i hf, exec_halted i hf, agreeButChunks_rechunk m s⟩
  have hf : s.fault = false := Bool.eq_false_iff.mpr hf
  by_cases ha : ArgsWritten i s
  case neg => exact ⟨_, _, exec_unwritten hf ha, exec_unwritten hf ha, agreeButChunks_rechunk m _⟩
  have hsame : faultOf i (rechunk m s.trace s.io s) = faultOf i s := by cases i <;> rfl
  cases hc : faultOf i s with
  | some c =>
    exact ⟨_, _, exec_faulting ⟨hf, ha⟩ hc, exec_faulting ⟨hf, ha⟩ (hsame.trans hc), agreeButChunks_rechunk m _⟩
  | none =>
    obtain ⟨io, ht⟩ := exec_allOk ⟨hf, ha⟩ hc hio
    obtain ⟨io', hu⟩ := exec_allOk (s := rechunk m s.trace s.io s) ⟨hf, ha⟩ (hsame.trans hc) hio
    exact ⟨_, _, ht, hu, agreeButChunks_concluded i m s.clearErr io io'⟩

/-- Settles O37, by the slices' common concatenation (`samePanel_slices`) lifted to every operation's events. -/
theorem chunkBoundariesCarryNoMeaning : Obligations.ChunkBoundariesCarryNoMeaning := by
  intro i s t u m hio ht hu
  obtain ⟨t', u', ht', hu', hagree⟩ := exec_agreeButChunks i m s hio
  cases ht.symm.trans ht'
  cases hu.symm.trans hu'
  exact hagree

end Sys2Proof.Proofs
end

section
/-! PROOFS. The statements of 10_state.md: the invariant of the block and its base case, what every operation keeps, the
host's register accesses (R16 to R23), construction (R40), and SEND_DATA's oracle draws (R36). -/

namespace Sys2Proof.Proofs

open Machine Laws

/-! ### A step is the host's part and at most one command -/

/-- The two states differ at most in what the host's accesses write: the operand registers, the ports, the host's queue,
the access index and the read log. -/
def HostOnly (s u : State) : Prop :=
  u = { s with
    arg1 := u.arg1, arg2 := u.arg2, arg3 := u.arg3, payload := u.payload, source := u.source, host := u.host,
    position := u.position, readLog := u.readLog }

/-- A host write of an operand register is on the host's side. -/
theorem hostOnly_setArg {s u : State} (h : HostOnly s u) (k : ArgName) (v : Word) : HostOnly s (u.setArg k v) := by
  rw [h]
  cases k <;> rfl

/-- After the host's part a step has finished, run an operation, or raised ILLEGAL_OP (30_encoding.md R80). -/
theorem step_host_then_command {s t : State} (h : step s = .next t) :
    ∃ u, HostOnly s u ∧ (t = u ∨ (∃ i, exec i u = .next t) ∨ t = raiseFault .illegalOp u.clearErr) := by
  rcases step_cases h with ⟨-, rfl⟩ | ⟨_, _, rest, -, -, rfl⟩ | ⟨_, _, _, rest, i, -, -, -, -, hexec⟩ |
    ⟨_, _, _, rest, _, -, -, -, -, rfl⟩ | ⟨_, _, v, rest, k, -, -, -, rfl⟩ | ⟨_, _, _, rest, -, -, rfl⟩ |
    ⟨p, rest, -, rfl⟩ | ⟨p, rest, -, rfl⟩
  · exact ⟨t, rfl, .inl rfl⟩
  · exact ⟨(served rest s).logRead _, rfl, .inl rfl⟩
  · exact ⟨served rest s, rfl, .inr (.inl ⟨i, hexec⟩)⟩
  · refine ⟨served rest s, rfl, ?_⟩
    split
    · exact .inl rfl
    · exact .inr (.inr rfl)
  · exact ⟨(served rest s).setArg k v, hostOnly_setArg (u := served rest s) rfl k v, .inl rfl⟩
  · exact ⟨served rest s, rfl, .inl rfl⟩
  · exact ⟨(s.takeEvent rest).setPayload p, rfl, .inl rfl⟩
  · exact ⟨(s.takeEvent rest).setSource p, rfl, .inl rfl⟩

/-- The state an operation started at `s` ends in when the write `a` fails after the primitives `before`
(60_exceptions.md R157); `exec_cases` ends in it. -/
def stopped (i : Instr) (s : State) (before : List Action) (a : Action) (io : IoOracle) : State :=
  ((firstWrite i s).ran (before.map Action.event ++ [a.failEvent]) io).setIoError

/-- An invariant holds after every step if the host's part keeps it and so does each of the three ends of a command: a
fault, a run to the end, a failed write. -/
theorem step_keeps {P : State → Prop} (hhost : ∀ s u, HostOnly s u → P s → P u)
    (hfault : ∀ c s, P s → P (raiseFault c s.clearErr)) (hdone : ∀ i s io, P s → P (concluded i s.clearErr io))
    (hstop : ∀ i s before a after io, P s → actionsOf i s.clearErr = before ++ a :: after → a.draws = true →
      P (stopped i s.clearErr before a io))
    {s t : State} (hs : P s) (h : step s = .next t) : P t := by
  obtain ⟨u, hsu, rfl | ⟨i, hexec⟩ | rfl⟩ := step_host_then_command h
  · exact hhost _ _ hsu hs
  · have hu : P u := hhost _ _ hsu hs
    rcases exec_cases hexec with ⟨-, rfl⟩ | ⟨-, -, rfl⟩ | ⟨-, -, c, -, rfl⟩ | ⟨-, -, -, io, rfl⟩ |
      ⟨-, -, -, before, a, after, io, hacts, hdraws, rfl⟩
    · exact hu
    · exact hfault _ _ hu
    · exact hfault c _ hu
    · exact hdone i _ io hu
    · exact hstop i _ before a after io hu hacts hdraws
  · exact hfault _ _ (hhost _ _ hsu hs)

/-! ### The events of an operation are allowed (10_state.md R33, R34) -/

/-- Whether they succeed or fail, the primitives put only allowed events on the trace. -/
def ActionsAllowed (p : Params) (acts : List Action) : Prop :=
  ∀ a ∈ acts, eventAllowed p a.event ∧ eventAllowed p a.failEvent

theorem actionsAllowed_nil (p : Params) : ActionsAllowed p [] := by simp [ActionsAllowed]

theorem actionsAllowed_append {p : Params} {as bs : List Action} :
    ActionsAllowed p (as ++ bs) ↔ ActionsAllowed p as ∧ ActionsAllowed p bs :=
  List.forall_mem_append

/-- The mode line is always there. -/
theorem actionsAllowed_dc (p : Params) (l : Bool) : ActionsAllowed p [.pin .dc l] := by
  simp [ActionsAllowed, Action.event, Action.failEvent, eventAllowed]

theorem actionsAllowed_delay (p : Params) (ms : Nat) : ActionsAllowed p [.delay ms] := by
  simp [ActionsAllowed, Action.event, Action.failEvent, eventAllowed]

/-- A command byte is a transfer of one byte, and MAX_CHUNK is at least 1 (00_scope.md R7). -/
theorem actionsAllowed_byte (p : Params) (c : Byte) : ActionsAllowed p [.bus [c]] := by
  have hpos : 1 ≤ (p.maxChunk : Nat) := p.maxChunk.pos
  simpa [ActionsAllowed, Action.event, Action.failEvent, eventAllowed] using hpos

/-- The key fact: no slice is empty or longer than MAX_CHUNK (44_transmit.md R121). -/
theorem actionsAllowed_chunkedWrite (p : Params) (bytes : List Byte) : ActionsAllowed p (chunkedWrite p bytes) := by
  intro a ha
  obtain ⟨w, hw, rfl⟩ := List.mem_map.mp ha
  have hlen : 1 ≤ w.length ∧ w.length ≤ p.maxChunk := length_of_mem_slices _ p.maxChunk.pos bytes w hw
  exact ⟨hlen, hlen⟩

theorem actionsAllowed_sendDataFramed (p : Params) (bytes : List Byte) :
    ActionsAllowed p (sendDataFramed p bytes) :=
  actionsAllowed_append.mpr ⟨actionsAllowed_dc p _, actionsAllowed_chunkedWrite p bytes⟩

theorem actionsAllowed_sendCommand (p : Params) (c : Byte) (params : List Byte) :
    ActionsAllowed p (sendCommand p c params) :=
  actionsAllowed_append (as := [.pin .dc p.dcCmdLevel]).mpr ⟨actionsAllowed_dc p _,
    actionsAllowed_append (as := [.bus [c]]).mpr
      ⟨actionsAllowed_byte p c, actionsAllowed_sendDataFramed p params⟩⟩

theorem actionsAllowed_emitWindow (p : Params) (x0 y0 x1 y1 : Nat) : ActionsAllowed p (emitWindow p x0 y0 x1 y1) := by
  simp only [emitWindow, actionsAllowed_append]
  exact ⟨⟨actionsAllowed_sendCommand p _ _, actionsAllowed_sendCommand p _ _⟩, actionsAllowed_sendCommand p _ _⟩

/-- RESET drives the reset line only where one is wired (45_protocol.md R133, R134). -/
theorem actionsAllowed_resetActions (p : Params) : ActionsAllowed p (resetActions p) := by
  unfold resetActions
  split
  case isTrue hpin => simp [ActionsAllowed, Action.event, Action.failEvent, eventAllowed, hpin]
  case isFalse => exact actionsAllowed_nil p

theorem actionsAllowed_initActions (p : Params) : ActionsAllowed p (initActions p) := by
  intro a ha
  obtain ⟨e, -, hae⟩ := List.mem_flatMap.mp ha
  have hentry : ActionsAllowed p (initEntryActions p e) := by
    refine actionsAllowed_append.mpr ⟨actionsAllowed_sendCommand p e.cmd e.params, ?_⟩
    split
    · exact actionsAllowed_delay p e.delayMs
    · exact actionsAllowed_nil p
  exact hentry a hae

theorem actionsAllowed_flushActions (p : Params) (cur : Grid) (region : Option (Fin HEIGHT × Fin HEIGHT)) :
    ActionsAllowed p (flushActions p cur region) := by
  cases region with
  | none => exact actionsAllowed_nil p
  | some rows =>
    exact actionsAllowed_append.mpr ⟨actionsAllowed_emitWindow p _ _ _ _, actionsAllowed_sendDataFramed p _⟩

/-- Every operation asks only for primitives whose events are allowed. -/
theorem actionsAllowed_actionsOf (i : Instr) (s : State) : ActionsAllowed s.cfg (actionsOf i s) := by
  cases i with
  | reset => exact actionsAllowed_resetActions s.cfg
  | init => exact actionsAllowed_initActions s.cfg
  | flush f => exact actionsAllowed_flushActions s.cfg s.cur (flushRegion f s)
  | setWindow => exact actionsAllowed_emitWindow s.cfg _ _ _ _
  | sendCmd cb => exact actionsAllowed_sendCommand s.cfg cb _
  | sendData => exact actionsAllowed_sendDataFramed s.cfg _
  | sendRawRegion =>
    exact actionsAllowed_append.mpr ⟨actionsAllowed_emitWindow s.cfg _ _ _ _, actionsAllowed_sendDataFramed s.cfg _⟩
  | _ => exact actionsAllowed_nil s.cfg

/-! ### The invariant of the block -/

theorem blockInv_hostOnly {s u : State} (hsu : HostOnly s u) (h : BlockInv s) : BlockInv u := by
  rw [hsu]
  exact ⟨h.faultCoded, h.dcTracked, h.rstTracked, h.eventsAllowed, h.errorTraced⟩

/-- Clearing ERR releases the trace from ending with a failing event. -/
theorem blockInv_clearErr {s : State} (h : BlockInv s) : BlockInv s.clearErr :=
  ⟨h.faultCoded, h.dcTracked, h.rstTracked, h.eventsAllowed, nofun⟩

/-- A fault sets FAULT and leaves a code (60_exceptions.md R154). -/
theorem blockInv_raiseFault (c : FaultCode) {s : State} (h : BlockInv s) : BlockInv (raiseFault c s) := by
  refine ⟨?_, h.dcTracked, h.rstTracked, h.eventsAllowed, h.errorTraced⟩
  cases hc : s.faultCode <;> simp [raiseFault, hc]

theorem blockInv_firstWrite (i : Instr) {s : State} (h : BlockInv s) : BlockInv (firstWrite i s) := by
  cases i <;> exact ⟨h.faultCoded, h.dcTracked, h.rstTracked, h.eventsAllowed, h.errorTraced⟩

theorem blockInv_lastWrite (i : Instr) (s : State) {t : State} (h : BlockInv t) : BlockInv (lastWrite i s t) := by
  cases i <;> exact ⟨h.faultCoded, h.dcTracked, h.rstTracked, h.eventsAllowed, h.errorTraced⟩

/-- The level of a line is followed through appended events (10_state.md R29, R33). -/
theorem lastLevel_append (pin : Pin) (trace es : List Event) :
    lastLevel pin (trace ++ es) = es.foldl (levelAfter pin) (lastLevel pin trace) :=
  List.foldl_append

/-- Allowed events appended with ERR = 0 keep the invariant. -/
theorem blockInv_ran {s : State} (h : BlockInv s) (herr : s.err = .ok) {es : List Event}
    (hes : ∀ e ∈ es, eventAllowed s.cfg e) (io : IoOracle) : BlockInv (s.ran es io) where
  faultCoded := h.faultCoded
  dcTracked := by
    rw [ran_trace, lastLevel_append, ← h.dcTracked]
    rfl
  rstTracked := by
    rw [ran_trace, lastLevel_append, ← h.rstTracked]
    rfl
  eventsAllowed := List.forall_mem_append.mpr ⟨h.eventsAllowed, hes⟩
  errorTraced := fun hio => by
    have hok : (s.ran es io).err = .ok := herr
    rw [hok] at hio
    cases hio

/-- ERR may be set behind a failing event. -/
theorem blockInv_setIoError {s : State} (h : BlockInv s) {e : Event} (hlast : s.trace.getLast? = some e)
    (hfail : e.failure = true) : BlockInv s.setIoError :=
  ⟨h.faultCoded, h.dcTracked, h.rstTracked, h.eventsAllowed, fun _ => ⟨e, hlast, hfail⟩⟩

theorem firstWrite_err (i : Instr) (s : State) : (firstWrite i s).err = s.err := by
  cases i <;> rfl

theorem firstWrite_cfg (i : Instr) (s : State) : (firstWrite i s).cfg = s.cfg := by
  cases i <;> rfl

/-- An operation that runs to its end keeps the invariant. -/
theorem blockInv_concluded (i : Instr) {s : State} (io : IoOracle) (h : BlockInv s) :
    BlockInv (concluded i s.clearErr io) := by
  refine blockInv_lastWrite i _ (blockInv_ran (blockInv_firstWrite i (blockInv_clearErr h)) (firstWrite_err i _) ?_ io)
  intro e he
  obtain ⟨a, ha, rfl⟩ := List.mem_map.mp he
  rw [firstWrite_cfg]
  exact (actionsAllowed_actionsOf i s.clearErr a ha).1

/-- An operation whose write `a` fails keeps the invariant: the failing form of `a` is the last event. -/
theorem blockInv_stopped (i : Instr) {s : State} {before after : List Action} {a : Action} (io : IoOracle)
    (h : BlockInv s) (hacts : actionsOf i s.clearErr = before ++ a :: after) (hdraws : a.draws = true) :
    BlockInv (stopped i s.clearErr before a io) := by
  have hallowed : ActionsAllowed s.cfg (before ++ a :: after) := hacts ▸ actionsAllowed_actionsOf i s.clearErr
  refine blockInv_setIoError (e := a.failEvent)
    (blockInv_ran (blockInv_firstWrite i (blockInv_clearErr h)) (firstWrite_err i _) ?_ io) ?_ (failEvent_eq a hdraws).2
  · rw [firstWrite_cfg]
    refine List.forall_mem_append.mpr ⟨fun e he => ?_, fun e he => ?_⟩
    · obtain ⟨b, hb, rfl⟩ := List.mem_map.mp he
      exact (hallowed b (List.mem_append_left _ hb)).1
    · rw [List.mem_singleton.mp he]
      exact (hallowed a (by simp)).2
  · simp

/-- Settles O49: the host's part leaves every field the invariant reads, and each end of a command keeps it. -/
theorem everyStepKeepsTheInvariant : Obligations.EveryStepKeepsTheInvariant := fun _ _ =>
  step_keeps (fun _ _ => blockInv_hostOnly) (fun c _ h => blockInv_raiseFault c (blockInv_clearErr h))
    (fun i _ io h => blockInv_concluded i io h) (fun i _ _ _ _ io h => blockInv_stopped i io h)

/-- Settles O50: no fault, no event and no level driven. -/
theorem constructionMeetsTheInvariant : Obligations.ConstructionMeetsTheInvariant := by
  have hconstructed : ∀ p curDraw prevDraw argDraw now payload source io clock,
      BlockInv (State.constructed p curDraw prevDraw argDraw now payload source io clock) :=
    fun _ _ _ _ _ _ _ _ _ => ⟨rfl, rfl, rfl, nofun, nofun⟩
  exact ⟨hconstructed, hconstructed ..⟩

/-! ### The first fault's code and the clock law -/

theorem raiseFault_faultCode_of_some {s : State} {code : FaultCode} (c : FaultCode) (h : s.faultCode = some code) :
    (raiseFault c s).faultCode = some code := by
  simp [raiseFault, h]

theorem concluded_faultCode (i : Instr) (s : State) (io : IoOracle) : (concluded i s io).faultCode = s.faultCode := by
  cases i <;> rfl

theorem stopped_faultCode (i : Instr) (s : State) (before : List Action) (a : Action) (io : IoOracle) :
    (stopped i s before a io).faultCode = s.faultCode := by
  cases i <;> rfl

/-- Settles O18: only `raiseFault` writes FAULT_CODE, and it keeps a code that is there (60_exceptions.md R154). -/
theorem firstFaultCodeIsKept : Obligations.FirstFaultCodeIsKept := by
  intro s t code h hs
  refine step_keeps (P := fun s => s.faultCode = some code) (fun s u hsu hs => ?_)
    (fun c s hs => raiseFault_faultCode_of_some c hs) (fun i s io hs => (concluded_faultCode i _ io).trans hs)
    (fun i s before a _ io hs _ _ => (stopped_faultCode i _ before a io).trans hs) hs h
  rw [hsu]
  exact hs

theorem clockLaw_congr {s t : State} (hlast : t.lastMs = s.lastMs) (hclock : t.clock = s.clock) (h : ClockLaw s) :
    ClockLaw t := by
  rw [ClockLaw, hlast, hclock]
  exact h

/-- A sample makes the draw taken LAST_MS; the draws after it are those after the first (10_state.md R32). -/
theorem clockLaw_updateFps {s : State} (h : ClockLaw s) : ClockLaw s.updateFps := by
  cases hd : s.clock.draws with
  | nil => simp [ClockLaw, State.updateFps, hd]
  | cons now later =>
    have hlater : (now :: later).Pairwise (· ≤ ·) := hd ▸ h.of_cons
    simpa [ClockLaw, State.updateFps, State.now, hd] using hlater

/-- Of the operations that run to their end only FLUSH takes a draw of the time port. -/
theorem clockLaw_concluded (i : Instr) {s : State} (io : IoOracle) (h : ClockLaw s) : ClockLaw (concluded i s io) := by
  cases i with
  | flush f => exact clockLaw_updateFps h
  | _ => exact h

/-- Settles O57. -/
theorem everyStepKeepsTheClockLaw : Obligations.EveryStepKeepsTheClockLaw := by
  intro s t hs h
  refine step_keeps (fun s u hsu hs => ?_) (fun _ _ hs => clockLaw_congr rfl rfl hs)
    (fun i s io hs => clockLaw_concluded i (s := s.clearErr) io hs) (fun i s _ _ _ _ hs _ _ => ?_) hs h
  · rw [hsu]
    exact hs
  · exact clockLaw_congr (by cases i <;> rfl) (by cases i <;> rfl) hs

/-! ### What an operation leaves as it is -/

/-- The writes every operation may make: STATUS's flags, the trace, the levels of the lines and the oracle. -/
def statusAndIo (err : ErrCode) (fault : Bool) (code : Option FaultCode) (trace : List Event) (dc rst : Level)
    (io : IoOracle) (s : State) : State :=
  { s with err := err, fault := fault, faultCode := code, trace := trace, dcLevel := dc, rstLevel := rst, io := io }

/-- A reading `π` of the state that neither those writes nor the operation's own first and last write change is the same
after the operation. -/
theorem exec_keeps {α : Type} (π : State → α) {i : Instr} {s t : State} (h : exec i s = .next t)
    (hlast : ∀ u v, π (lastWrite i u v) = π v) (hfirst : ∀ u, π (firstWrite i u) = π u)
    (hio : ∀ err fault code trace dc rst io u, π (statusAndIo err fault code trace dc rst io u) = π u) : π t = π s := by
  have hclear : π s.clearErr = π s := hio .ok s.fault s.faultCode s.trace s.dcLevel s.rstLevel s.io s
  have hfault (c : FaultCode) (u : State) : π (raiseFault c u) = π u :=
    hio u.err true _ u.trace u.dcLevel u.rstLevel u.io u
  have hran (u : State) (es : List Event) (io : IoOracle) : π (u.ran es io) = π u :=
    hio u.err u.fault u.faultCode _ _ _ io u
  have herr (u : State) : π u.setIoError = π u :=
    hio .ioError u.fault u.faultCode u.trace u.dcLevel u.rstLevel u.io u
  rcases exec_cases h with ⟨-, rfl⟩ | ⟨-, -, rfl⟩ | ⟨-, -, c, -, rfl⟩ | ⟨-, -, -, io, rfl⟩ |
    ⟨-, -, -, before, a, after, io, -, -, rfl⟩
  · rfl
  · rw [hfault, hclear]
  · rw [hfault, hclear]
  · rw [concluded, hlast, hran, hfirst, hclear]
  · rw [herr, hran, hfirst, hclear]

/-- The same for a reading that STATE is no part of, so that the first write of RESET and INIT does not matter. -/
theorem exec_keeps_of_setProto {α : Type} (π : State → α) {i : Instr} {s t : State} (h : exec i s = .next t)
    (hlast : ∀ u v, π (lastWrite i u v) = π v) (hproto : ∀ p u, π (u.setProto p) = π u)
    (hio : ∀ err fault code trace dc rst io u, π (statusAndIo err fault code trace dc rst io u) = π u) : π t = π s := by
  refine exec_keeps π h hlast (fun u => ?_) hio
  cases i with
  | reset => exact hproto _ u
  | init => exact hproto _ u
  | _ => rfl

/-- What no operation writes: the parameters, the operand registers, the ports and the host's side. -/
def untouched (s : State) :
    Params × ArgReg × ArgReg × ArgReg × PayloadPort × SourcePort × List HostEvent × Nat × List Word :=
  (s.cfg, s.arg1, s.arg2, s.arg3, s.payload, s.source, s.host, s.position, s.readLog)

theorem exec_untouched {i : Instr} {s t : State} (h : exec i s = .next t) : untouched t = untouched s :=
  exec_keeps_of_setProto untouched h (fun u v => by cases i <;> rfl) (fun _ _ => rfl) (fun _ _ _ _ _ _ _ _ => rfl)

/-- What the operations without I/O do not write either. -/
def ioSide (s : State) : List Event × Level × Level × IoOracle := (s.trace, s.dcLevel, s.rstLevel, s.io)

theorem lastWrite_ioSide (i : Instr) (u v : State) : ioSide (lastWrite i u v) = ioSide v := by
  cases i <;> rfl

/-- The rule of an accepted operation that raises no fault, read forwards. -/
theorem exec_runs {i : Instr} {s : State} (ha : Accepted i s) (hc : faultOf i s = none) :
    exec i s =
      .next ((perform (actionsOf i s.clearErr) (firstWrite i s.clearErr)).conclude (lastWrite i s.clearErr)) := by
  have hc' : faultOf i s.clearErr = none := by rw [← hc]; cases i <;> rfl
  rw [exec_eq, accept_written ha.1 ha.2, ruleOf_eq, hc']

/-- An operation that may emit no event asks for no primitive (20_memory.md R55). -/
theorem perform_silent {i : Instr} (hi : emitsEvents i = false) (s : State) :
    perform (actionsOf i s) (firstWrite i s) = .done s := by
  cases i with
  | reset | init | flush _ | setWindow | sendCmd _ | sendData | sendRawRegion => cases hi
  | _ => rfl

theorem exec_silent_ioSide {i : Instr} {s t : State} (hi : emitsEvents i = false) (h : exec i s = .next t) :
    ioSide t = ioSide s := by
  rcases exec_cases h with ⟨-, rfl⟩ | ⟨-, -, rfl⟩ | ⟨-, -, c, -, rfl⟩ | ⟨hf, ha, hc, -⟩ | ⟨hf, ha, hc, -⟩
  · rfl
  · rfl
  · rfl
  all_goals
    rw [exec_runs ⟨hf, ha⟩ hc, perform_silent hi] at h
    cases h
    exact lastWrite_ioSide i _ _

/-- Settles O55. -/
theorem whatNoOperationChanges : Obligations.WhatNoOperationChanges := by
  intro i s t h
  have hsame := exec_untouched h
  simp only [untouched, Prod.mk.injEq] at hsame
  obtain ⟨hcfg, harg1, harg2, harg3, hpayload, hsource, hhost, hposition, hlog⟩ := hsame
  refine ⟨hcfg, harg1, harg2, harg3, hpayload, hsource, hhost, hposition, hlog, fun hi => ?_⟩
  simpa only [ioSide, Prod.mk.injEq] using exec_silent_ioSide hi h

/-! ### Who writes the grids, RESULT and STATE -/

theorem lastWrite_cur {i : Instr} (hi : drawsCur i = false) (u v : State) : (lastWrite i u v).cur = v.cur := by
  cases i with
  | fillRect | clear | blit => cases hi
  | _ => rfl

theorem lastWrite_prev {i : Instr} (hi : ∀ f, i ≠ .flush f) (u v : State) : (lastWrite i u v).prev = v.prev := by
  cases i with
  | flush f => exact absurd rfl (hi f)
  | _ => rfl

theorem exec_cur {i : Instr} {s t : State} (h : exec i s = .next t) (hi : drawsCur i = false) : t.cur = s.cur :=
  exec_keeps_of_setProto State.cur h (lastWrite_cur hi) (fun _ _ => rfl) (fun _ _ _ _ _ _ _ _ => rfl)

theorem exec_prev {i : Instr} {s t : State} (h : exec i s = .next t) (hi : ∀ f, i ≠ .flush f) : t.prev = s.prev :=
  exec_keeps_of_setProto State.prev h (lastWrite_prev hi) (fun _ _ => rfl) (fun _ _ _ _ _ _ _ _ => rfl)

/-- A FLUSH that runs to its end copies (45_protocol.md R143); any other leaves prev (R145). -/
theorem exec_flush_prev {f : Bool} {s t : State} (h : exec (.flush f) s = .next t) :
    t.prev = s.prev ∨ t.prev = s.cur := by
  rcases exec_cases h with ⟨-, rfl⟩ | ⟨-, -, rfl⟩ | ⟨-, -, c, -, rfl⟩ | ⟨-, -, -, io, rfl⟩ |
    ⟨-, -, -, before, a, after, io, -, -, rfl⟩
  · exact .inl rfl
  · exact .inl rfl
  · exact .inl rfl
  · exact .inr rfl
  · exact .inl rfl

/-- Settles O53. -/
theorem whoWritesTheGrids : Obligations.WhoWritesTheGrids :=
  ⟨fun _ _ _ => exec_cur, fun _ _ _ => exec_prev, fun _ _ _ => exec_flush_prev,
    fun _ _ h => ⟨exec_cur h rfl, exec_prev h nofun⟩⟩

theorem lastWrite_result {i : Instr} (hi : definesResult i = false) (u v : State) :
    (lastWrite i u v).result = v.result := by
  cases i with
  | cvtPack | cvtUnpack | almostEq | scan | flush _ => cases hi
  | _ => rfl

theorem concluded_fault (i : Instr) (s : State) (io : IoOracle) : (concluded i s io).fault = s.fault := by
  cases i <;> rfl

theorem stopped_result (i : Instr) (s : State) (before : List Action) (a : Action) (io : IoOracle) :
    (stopped i s before a io).result = s.result := by
  cases i <;> rfl

/-- RESULT is written only at the end of an operation that ran to its end, without a fault or an I/O error. -/
theorem exec_result_or_concluded {i : Instr} {s t : State} (h : exec i s = .next t) :
    t.result = s.result ∨ t.fault = false ∧ t.err = .ok := by
  rcases exec_cases h with ⟨-, rfl⟩ | ⟨-, -, rfl⟩ | ⟨-, -, c, -, rfl⟩ | ⟨hf, -, -, io, rfl⟩ |
    ⟨-, -, -, before, a, after, io, -, -, rfl⟩
  · exact .inl rfl
  · exact .inl rfl
  · exact .inl rfl
  · exact .inr ⟨(concluded_fault i _ io).trans hf, concluded_err i _ io⟩
  · exact .inl (stopped_result i s.clearErr before a io)

/-- Settles O54. -/
theorem whoWritesTheResult : Obligations.WhoWritesTheResult := by
  refine ⟨fun i s t h hi => ?_, fun i s t h hf => ?_, fun i s t _ h he => ?_, rfl⟩
  · exact exec_keeps_of_setProto State.result h (lastWrite_result hi) (fun _ _ => rfl) (fun _ _ _ _ _ _ _ _ => rfl)
  · exact (exec_result_or_concluded h).resolve_right fun ⟨hgood, _⟩ => absurd (hf.symm.trans hgood) nofun
  · exact (exec_result_or_concluded h).resolve_right fun ⟨_, hok⟩ => absurd (he.symm.trans hok) nofun

theorem argsWritten_of_argsRead_nil {i : Instr} {s : State} (h : argsRead i = []) : ArgsWritten i s := by
  simp [ArgsWritten, h]

/-- An accepted RESET, whether its writes succeed or fail: it has no operand and no cause of a fault. -/
theorem exec_reset_proto {s t : State} (hf : s.fault = false) (h : exec .reset s = .next t) : t.proto = .resetting := by
  rw [exec_runs ⟨hf, argsWritten_of_argsRead_nil rfl⟩ rfl] at h
  rcases perform_cases (actionsOf .reset s.clearErr) (firstWrite .reset s.clearErr) with
    ⟨io, hp⟩ | ⟨before, a, after, io, -, -, hp⟩
  · rw [hp] at h
    cases h
    rfl
  · rw [hp] at h
    cases h
    rfl

/-- INIT from RESETTING: READY behind its last write, CONFIGURING behind a failing one (45_protocol.md R136, R138). -/
theorem exec_init_proto {s t : State} (hf : s.fault = false) (hs : s.proto = .resetting)
    (h : exec .init s = .next t) : t.err = .ok ∧ t.proto = .ready ∨ t.err = .ioError ∧ t.proto = .configuring := by
  have hc : faultOf .init s = none := by simp [faultOf, stateAllows, boundsOk, hs]
  rw [exec_runs ⟨hf, argsWritten_of_argsRead_nil rfl⟩ hc] at h
  rcases perform_cases (actionsOf .init s.clearErr) (firstWrite .init s.clearErr) with
    ⟨io, hp⟩ | ⟨before, a, after, io, -, -, hp⟩
  · rw [hp] at h
    cases h
    exact .inl ⟨rfl, rfl⟩
  · rw [hp] at h
    cases h
    exact .inr ⟨rfl, rfl⟩

/-- INIT in any other protocol state faults STATE before it writes anything (R158). -/
theorem exec_init_refused {s t : State} (hs : s.proto ≠ .resetting) (h : exec .init s = .next t) :
    t.proto = s.proto := by
  have hc : faultOf .init s = some .state := by simp [faultOf, stateAllows, hs]
  by_cases hf : s.fault = true
  · rw [exec_halted .init hf] at h
    cases h
    rfl
  · rw [exec_faulting ⟨Bool.eq_false_iff.mpr hf, argsWritten_of_argsRead_nil rfl⟩ hc] at h
    cases h
    rfl

theorem exec_proto {i : Instr} {s t : State} (h : exec i s = .next t) (hreset : i ≠ .reset) (hinit : i ≠ .init) :
    t.proto = s.proto := by
  have hlast (u v : State) : (lastWrite i u v).proto = v.proto := by
    cases i with
    | init => exact absurd rfl hinit
    | _ => rfl
  have hfirst (u : State) : (firstWrite i u).proto = u.proto := by
    cases i with
    | reset => exact absurd rfl hreset
    | init => exact absurd rfl hinit
    | _ => rfl
  exact exec_keeps State.proto h hlast hfirst (fun _ _ _ _ _ _ _ _ => rfl)

/-- Settles O52. -/
theorem protocolTransitions : Obligations.ProtocolTransitions := by
  refine ⟨rfl, fun _ _ => exec_reset_proto, fun s t hf hs h => ?_, fun i s t h hne => ?_⟩
  · rcases exec_init_proto hf hs h with ⟨herr, hproto⟩ | ⟨herr, hproto⟩
    · exact ⟨fun _ => hproto, fun hio => absurd (herr.symm.trans hio) nofun⟩
    · exact ⟨fun hok => absurd (herr.symm.trans hok) nofun, fun _ => hproto⟩
  · by_cases hreset : i = .reset
    · exact .inl hreset
    by_cases hinit : i = .init
    · subst hinit
      exact .inr ⟨rfl, by_contra fun hs => hne (exec_init_refused hs h)⟩
    · exact absurd (exec_proto h hreset hinit) hne

/-! ### The oracle's draws (10_state.md R36) -/

theorem oracleNext_cons {o : IoOracle} {b : Bool} {more : List Bool} (h : o.draws = b :: more) : oracleNext o = b := by
  simp [oracleNext, h]

theorem oracleRest_cons {o : IoOracle} {b : Bool} {more : List Bool} (h : o.draws = b :: more) :
    oracleRest o = { o with draws := more } := by
  simp [oracleRest, h]

/-- Primitives that all draw, against `k` draws ok and then a failure: primitive `k` fails, after the events of those
before it and with `k + 1` draws used. -/
theorem perform_stops {acts : List Action} {k : Nat} {a : Action} {more : List Bool} {s : State}
    (hall : ∀ b ∈ acts, b.draws = true) (hk : acts[k]? = some a)
    (hd : s.io.draws = List.replicate k true ++ false :: more) :
    perform acts s =
      .failed (s.ran ((acts.take k).map Action.event ++ [a.failEvent]) { s.io with draws := more }) := by
  induction k generalizing acts s with
  | zero =>
    obtain ⟨after, rfl⟩ : ∃ after, acts = a :: after := by
      cases acts with
      | nil => cases hk
      | cons b after => exact ⟨after, by simpa using hk⟩
    have hfalse : oracleNext s.io = false := oracleNext_cons hd
    rcases performOne_cases a s with ⟨-, hnext⟩ | ⟨hone, -, -⟩
    · rw [hnext (hall a List.mem_cons_self)] at hfalse
      cases hfalse
    · rw [oracleRest_cons hd] at hone
      simp [perform, hone]
  | succ k ih =>
    cases acts with
    | nil => cases hk
    | cons b acts =>
      have htrue : oracleNext s.io = true := oracleNext_cons hd
      rcases performOne_cases b s with ⟨hone, -⟩ | ⟨-, -, hnext⟩
      · rw [hall b List.mem_cons_self, if_pos rfl, oracleRest_cons hd] at hone
        have hrest := ih (s := s.ran [b.event] { s.io with draws := List.replicate k true ++ false :: more })
          (fun c hc => hall c (List.mem_cons_of_mem b hc)) (by simpa using hk) rfl
        simp [perform, hone, hrest, ran_ran]
      · rw [htrue] at hnext
        cases hnext

/-- Every primitive of SEND_DATA is a write, and takes a draw. -/
theorem draws_of_mem_sendDataFramed (p : Params) (bytes : List Byte) :
    ∀ a ∈ sendDataFramed p bytes, a.draws = true := by
  simp [sendDataFramed, chunkedWrite, Action.draws]

/-- Settles O20. -/
theorem sendDataFailsAtTheFirstFailingDraw : Obligations.SendDataFailsAtTheFirstFailingDraw := by
  intro s k more e ha hd hk
  rw [← payloadBytes_eq_map, ← sendDataFramed_events] at hk ⊢
  rw [List.getElem?_map, Option.map_eq_some_iff] at hk
  obtain ⟨a, hka, rfl⟩ := hk
  have hall := draws_of_mem_sendDataFramed s.cfg (payloadBytes s.payload s.arg1.value.toNat)
  have hrun : perform (actionsOf .sendData s.clearErr) (firstWrite .sendData s.clearErr) = _ :=
    perform_stops (s := s.clearErr) hall hka hd
  have hfail : a.failEvent = a.event.failed := (failEvent_eq a (hall a (List.mem_of_getElem? hka))).1
  refine ⟨_, exec_runs ha rfl, ?_⟩
  rw [hrun, ← hfail, ← List.map_take, List.append_assoc]
  exact ⟨rfl, rfl, rfl⟩

/-! ### The host's accesses (10_state.md R16 to R23) -/

theorem accessOk_iff {width off : Nat} : accessOk width off = true ↔ width = 32 ∧ off % 4 = 0 ∧ off ≤ 0xFF := by
  simp [accessOk, and_assoc]

theorem registerAt_argOffset (k : ArgName) : registerAt (argOffset k) = .arg k := by
  cases k <;> rfl

theorem accessOk_argOffset (k : ArgName) : accessOk 32 (argOffset k) = true := by
  cases k <;> rfl

theorem registerAt_reserved {off : Nat} (h : 0x24 ≤ off) : registerAt off = .reserved := by
  unfold registerAt
  iterate 9 rw [if_neg (by omega)]

/-- Only OP and the operand registers, below 0x10, take a write. -/
theorem writeRegister_of_le {off : Nat} (h : 0x10 ≤ off) (v : Word) (s : State) :
    writeRegister (registerAt off) v s = .next s := by
  unfold registerAt
  iterate 4 rw [if_neg (by omega)]
  split_ifs <;> rfl

/-- STATUS as a number: its fields at their bit positions (R19). -/
theorem statusWord_toNat (s : State) :
    (statusWord s).toNat = s.proto.code.toNat + 4 * s.fault.toNat + 256 * s.err.code.toNat +
      65536 * (faultField s.faultCode).toNat := by
  unfold statusWord
  simp only [append_toNat, BitVec.toNat_ofBool, BitVec.toNat_ofNat]
  omega

theorem maxChunkWord_toNat (p : Params) : (maxChunkWord p).toNat = min 0xFFFFFFFF p.maxChunk := by
  rw [maxChunkWord, BitVec.toNat_ofNat]
  exact Nat.mod_eq_of_lt (by omega)

theorem flagsWord_toNat (p : Params) : (flagsWord p).toNat = p.hasResetPin.toNat := by
  unfold flagsWord
  rw [append_toNat, BitVec.toNat_ofBool]
  simp

/-- Settles O8. -/
theorem readReturnsTheRegisterAndChangesNothing : Obligations.ReadReturnsTheRegisterAndChangesNothing := by
  intro s off rest h halign hle
  refine ⟨readRegister (registerAt off) s, step_read h (accessOk_iff.mpr ⟨rfl, halign, hle⟩), ?_, ?_, ?_, ?_, ?_, ?_, ?_,
    ?_, ?_, ?_⟩
  case refine_5 => rintro rfl; exact statusWord_toNat s
  case refine_8 => rintro rfl; exact maxChunkWord_toNat s.cfg
  case refine_9 => rintro rfl; exact flagsWord_toNat s.cfg
  case refine_10 => intro hreserved; rw [registerAt_reserved hreserved]; rfl
  all_goals rintro rfl; rfl

/-- Settles O10. -/
theorem writeToReadOnlyOffsetIsIgnored : Obligations.WriteToReadOnlyOffsetIsIgnored := by
  intro s off v rest h halign hlow hle
  rw [step_write h (accessOk_iff.mpr ⟨rfl, halign, hle⟩), writeRegister_of_le hlow]
  rfl

/-- Settles O12. -/
theorem accessOutsideTheInterfaceIsRefused : Obligations.AccessOutsideTheInterfaceIsRefused := by
  intro s width off rest hout
  have hno : accessOk width off = false := by
    rw [Bool.eq_false_iff, Ne, accessOk_iff]
    omega
  exact ⟨fun h => step_read_refused h hno, fun v h => step_write_refused h hno⟩

theorem raiseFault_eq (c : FaultCode) (s : State) :
    raiseFault c s = { s with fault := true, faultCode := s.faultCode.or (some c) } := by
  cases hc : s.faultCode <;> simp [raiseFault, hc]

theorem exec_arg {i : Instr} {s t : State} (h : exec i s = .next t) (k : ArgName) : t.arg k = s.arg k := by
  obtain ⟨-, harg1, harg2, harg3, -⟩ := whatNoOperationChanges i s t h
  cases k with
  | arg1 => exact harg1
  | arg2 => exact harg2
  | arg3 => exact harg3

/-- Settles O11. -/
theorem operandRegistersHoldTheHostsLastWrite : Obligations.OperandRegistersHoldTheHostsLastWrite := by
  refine ⟨fun s k v rest h => ?_, fun s k rest h => ?_, fun _ _ _ => exec_arg, fun i s hf ha => ?_, fun k => ?_⟩
  · rw [step_write h (accessOk_argOffset k), registerAt_argOffset]
    cases k <;> rfl
  · rw [step_read h (accessOk_argOffset k), registerAt_argOffset]
    rfl
  · rw [exec_unwritten hf ha, raiseFault_eq]
    rfl
  · cases k <;> rfl

/-- Settles O5. -/
theorem stepRunsTheDecodedInstruction : Obligations.StepRunsTheDecodedInstruction := by
  intro s w rest i h hdecode
  rw [step_write h rfl]
  exact runWord_ok hdecode (served rest s)

/-- Settles O6. -/
theorem idleBlockStaysAsItIs : Obligations.IdleBlockStaysAsItIs := fun _ => step_idle

/-- Settles O7. -/
theorem portContentsAreTheHosts : Obligations.PortContentsAreTheHosts :=
  fun _ _ => ⟨fun _ => step_event, fun _ => step_event⟩

/-- Settles O9. -/
theorem statusFieldValues : Obligations.StatusFieldValues := by
  unfold Obligations.StatusFieldValues
  decide

/-- Settles O13: the grids by `Grid.at_ofDraws`, the rest as `State.constructed` writes it. -/
theorem constructionLeavesTheResetValues : Obligations.ConstructionLeavesTheResetValues := by
  intro p curDraw prevDraw argDraw now payload source io clock s
  refine ⟨fun i => ⟨Grid.at_ofDraws curDraw i, Grid.at_ofDraws prevDraw i⟩, rfl, rfl, rfl, rfl, rfl, rfl, fun k => ?_, rfl,
    rfl, rfl, rfl, rfl⟩
  cases k <;> rfl

end Sys2Proof.Proofs
end

section
/-! PROOFS. The statements of 30_encoding.md: the opcode table, the decoder and the encoder (R66, R69, R73, R74, R79),
the operand bits no layout names (R76), and the assembler's pseudo-instructions (R77, R78). -/

namespace Sys2Proof.Proofs

open Machine Laws

/-! ### The fields of a masked word (30_encoding.md R66) -/

theorem opcField_and (a b : Word) : opcField (a &&& b) = opcField a &&& opcField b := BitVec.extractLsb'_and

theorem forceField_and (a b : Word) : forceField (a &&& b) = (forceField a && forceField b) := BitVec.getLsbD_and

theorem rsv0Field_and (a b : Word) : rsv0Field (a &&& b) = rsv0Field a &&& rsv0Field b := BitVec.extractLsb'_and

theorem cbField_and (a b : Word) : cbField (a &&& b) = cbField a &&& cbField b := BitVec.extractLsb'_and

theorem rsv1Field_and (a b : Word) : rsv1Field (a &&& b) = rsv1Field a &&& rsv1Field b := BitVec.extractLsb'_and

/-- Two words are the same exactly when their five fields are. -/
theorem word_ext_iff (a b : Word) :
    a = b ↔ opcField a = opcField b ∧ forceField a = forceField b ∧ rsv0Field a = rsv0Field b ∧
      cbField a = cbField b ∧ rsv1Field a = rsv1Field b :=
  ⟨fun h => h ▸ ⟨rfl, rfl, rfl, rfl, rfl⟩, fun ⟨h0, h1, h2, h3, h4⟩ => word_ext h0 h1 h2 h3 h4⟩

/-- R73 and R74, check by check. -/
theorem legalWord_iff (w : Word) :
    legalWord w = true ↔
      opcField w ∈ opcodes ∧ rsv0Field w = 0 ∧ rsv1Field w = 0 ∧ (forceField w = true → opcField w = 0x31) ∧
        (cbField w ≠ 0 → opcField w = 0x41) := by
  simp only [legalWord, opcodeKnown, reservedZero, forceAllowed, cbAllowed, Bool.and_eq_true, Bool.or_eq_true,
    Bool.not_eq_true', beq_iff_eq, List.contains_iff_mem, and_assoc, ← Bool.not_eq_true, ← imp_iff_not_or,
    ← or_iff_not_imp_left]

/-! ### The rows of the opcode table (R69, R79) -/

/-- The masks and patterns of R69: a row fixes OPC and the reserved fields, and F and CB to 0 unless they are its
own. -/
theorem fields_of_mem_opcodeTable :
    ∀ r ∈ opcodeTable,
      (opcField r.mask = BitVec.allOnes 8 ∧ forceField r.mask = (opcField r.pattern != 0x31) ∧
        rsv0Field r.mask = BitVec.allOnes 7 ∧
        cbField r.mask = (if opcField r.pattern = 0x41 then 0 else BitVec.allOnes 8) ∧
        rsv1Field r.mask = BitVec.allOnes 8) ∧
      forceField r.pattern = false ∧ rsv0Field r.pattern = 0 ∧ cbField r.pattern = 0 ∧ rsv1Field r.pattern = 0 := by
  decide

/-- The table's rows are those of R74's codes, in their order. -/
theorem opcodes_eq : opcodes = opcodeTable.map (fun r => opcField r.pattern) := by
  decide

theorem nodup_opcodes : opcodes.Nodup := by
  decide

/-- A row covers exactly the legal words with its operation code. -/
theorem covers_iff {r : Row} (hr : r ∈ opcodeTable) (w : Word) :
    r.covers w = true ↔ legalWord w = true ∧ opcField w = opcField r.pattern := by
  obtain ⟨⟨hopc, hforce, hrsv0, hcb, hrsv1⟩, pforce, prsv0, pcb, prsv1⟩ := fields_of_mem_opcodeTable r hr
  have hknown : opcField r.pattern ∈ opcodes := by
    rw [opcodes_eq]
    exact List.mem_map_of_mem hr
  rw [Row.covers, beq_iff_eq, word_ext_iff, opcField_and, forceField_and, rsv0Field_and, cbField_and, rsv1Field_and,
    hopc, hforce, hrsv0, hcb, hrsv1, pforce, prsv0, pcb, prsv1, BitVec.and_allOnes, BitVec.and_allOnes,
    BitVec.and_allOnes, legalWord_iff]
  by_cases hw : opcField w = opcField r.pattern
  case neg => simp [hw]
  rw [hw]
  have hF : (forceField w && (opcField r.pattern != 0x31)) = false ↔
      (forceField w = true → opcField r.pattern = 0x31) := by
    simp
  have hCB : (cbField w &&& (if opcField r.pattern = 0x41 then 0 else BitVec.allOnes 8)) = 0 ↔
      (cbField w ≠ 0 → opcField r.pattern = 0x41) := by
    split
    case isTrue h => simp [h]
    case isFalse h => rw [BitVec.and_allOnes]; tauto
  rw [hF, hCB]
  tauto

/-- Two rows with one operation code are one row. -/
theorem row_eq_of_opcField {r r' : Row} (hr : r ∈ opcodeTable) (hr' : r' ∈ opcodeTable)
    (h : opcField r.pattern = opcField r'.pattern) : r = r' :=
  List.inj_on_of_nodup_map (opcodes_eq ▸ nodup_opcodes) hr hr' h

/-- The decoder answers the row that covers the word, wherever it stands in the table. -/
theorem decode_of_covers {r : Row} (hr : r ∈ opcodeTable) {w : Word} (h : r.covers w = true) :
    decode w = .ok (r.build w) := by
  rcases decode_cases w with ⟨r', hr', hcovers', hdecode⟩ | ⟨hnone, -⟩
  · rw [row_eq_of_opcField hr hr' ((opcField_of_covers hr h).trans (opcField_of_covers hr' hcovers').symm), hdecode]
  · simp [hnone r hr] at h

/-- The words that decode are the legal ones. -/
theorem decode_ok_iff_legalWord (w : Word) : (∃ i, decode w = .ok i) ↔ legalWord w = true := by
  constructor
  · rintro ⟨i, hi⟩
    rcases decode_cases w with ⟨r, hr, hcovers, -⟩ | ⟨-, herr⟩
    · exact ((covers_iff hr w).mp hcovers).1
    · cases hi.symm.trans herr
  · intro hlegal
    have hknown : opcField w ∈ opcodes := ((legalWord_iff w).mp hlegal).1
    rw [opcodes_eq] at hknown
    obtain ⟨r, hr, hopc⟩ := List.mem_map.mp hknown
    exact ⟨_, decode_of_covers hr ((covers_iff hr w).mpr ⟨hlegal, hopc.symm⟩)⟩

/-! ### Decoding and encoding -/

/-- Every instruction's word is legal and carries its operation code and its operands. -/
theorem wordShape (i : Instr) : WordShape.Statement i := by
  cases i with
  | reset => exact WordShape.reset
  | init => exact WordShape.init
  | cvtPack => exact WordShape.cvtPack
  | cvtUnpack => exact WordShape.cvtUnpack
  | almostEq => exact WordShape.almostEq
  | fillRect => exact WordShape.fillRect
  | clear => exact WordShape.clear
  | blit => exact WordShape.blit
  | scan => exact WordShape.scan
  | flush f => exact WordShape.flush f
  | setWindow => exact WordShape.setWindow
  | sendCmd cb => exact WordShape.sendCmd cb
  | sendData => exact WordShape.sendData
  | sendRawRegion => exact WordShape.sendRawRegion

/-- The decoder reads every instruction back from its word. -/
theorem decode_encode (i : Instr) : decode (encode i) = .ok i := by
  cases i with
  | flush f => cases f <;> rfl
  | sendCmd cb =>
    obtain ⟨hlegal, hopc, -, hcb⟩ := WordShape.sendCmd cb
    have hrow : opcodeTable[11] ∈ opcodeTable := List.getElem_mem _
    rw [decode_of_covers hrow ((covers_iff hrow _).mpr ⟨hlegal, hopc⟩)]
    exact congrArg (fun c => Except.ok (Instr.sendCmd c)) hcb
  | _ => rfl

/-- The instruction a row reads from a word has the row's operation code, and the word's F and CB where they are the
row's own fields. -/
theorem fields_encode_build {r : Row} (hr : r ∈ opcodeTable) (w : Word) :
    opcField (encode (r.build w)) = opcField r.pattern ∧
      forceField (encode (r.build w)) = (opcField r.pattern == 0x31 && forceField w) ∧
      cbField (encode (r.build w)) = if opcField r.pattern = 0x41 then cbField w else 0 := by
  have hshape := (wordShape (r.build w)).2
  fin_cases hr <;> exact hshape

/-- A covered word is the word of the instruction its row reads: no bit is dropped. -/
theorem encode_build {r : Row} (hr : r ∈ opcodeTable) {w : Word} (h : r.covers w = true) : encode (r.build w) = w := by
  obtain ⟨hlegal, hopc⟩ := (covers_iff hr w).mp h
  obtain ⟨-, hrsv0, hrsv1, hforce, hcb⟩ := (legalWord_iff w).mp hlegal
  obtain ⟨-, hrsv0', hrsv1', -, -⟩ := (legalWord_iff _).mp (wordShape (r.build w)).1
  obtain ⟨hopc', hforce', hcb'⟩ := fields_encode_build hr w
  refine word_ext (hopc'.trans hopc.symm) ?_ (hrsv0'.trans hrsv0.symm) ?_ (hrsv1'.trans hrsv1.symm)
  · rw [hforce', ← hopc]
    simpa using hforce
  · rw [hcb', ← hopc]
    split
    case isTrue => rfl
    case isFalse hother => exact (not_not.mp (mt hcb hother)).symm

/-- Settles O1: the decoder answers only what the row that covers the word reads (`encode_build`), and it reads every
instruction back (`decode_encode`). -/
theorem decodeExactlyInvertsEncode : Obligations.DecodeExactlyInvertsEncode := by
  intro w i
  constructor
  · intro hdecode
    rcases decode_cases w with ⟨r, hr, hcovers, hbuild⟩ | ⟨-, herr⟩
    · cases hbuild.symm.trans hdecode
      exact (encode_build hr hcovers).symm
    · cases hdecode.symm.trans herr
  · rintro rfl
    exact decode_encode i

/-- Settles O2: the rows have operation codes of their own, so at most one row has the word's. -/
theorem everyWordIsOneInstructionOrIllegal : Obligations.EveryWordIsOneInstructionOrIllegal := by
  have hdistinct : opcodeTable.Pairwise (fun a b => opcField a.pattern ≠ opcField b.pattern) :=
    List.pairwise_map.mp (opcodes_eq ▸ nodup_opcodes)
  refine ⟨fun w => ?_, fun w r hr => decode_of_covers hr, fun w hnone => ?_,
    fun r hr => (fields_of_mem_opcodeTable r hr).1.1, hdistinct⟩
  · calc (opcodeTable.filter (fun r => r.covers w)).length
      _ = opcodeTable.countP (fun r => r.covers w) := List.countP_eq_length_filter.symm
      _ ≤ opcodeTable.countP ((· == opcField w) ∘ fun r => opcField r.pattern) :=
        List.countP_mono_left fun r hr h => beq_iff_eq.mpr (opcField_of_covers hr h)
      _ = opcodes.count (opcField w) := by rw [opcodes_eq, List.count, List.countP_map]
      _ ≤ 1 := List.nodup_iff_count_le_one.mp nodup_opcodes _
  · rcases decode_cases w with ⟨r, hr, hcovers, -⟩ | ⟨-, herr⟩
    · simp [hnone r hr] at hcovers
    · exact ⟨_, herr⟩

/-- The operation codes that are not in R69, as the ranges R74 lists. -/
theorem not_mem_opcodes_iff (b : Byte) :
    b ∉ opcodes ↔
      b.toNat = 0 ∨ (0x03 ≤ b.toNat ∧ b.toNat ≤ 0x0F) ∨ (0x13 ≤ b.toNat ∧ b.toNat ≤ 0x1F) ∨
        (0x23 ≤ b.toNat ∧ b.toNat ≤ 0x2F) ∨ (0x32 ≤ b.toNat ∧ b.toNat ≤ 0x3F) ∨ 0x44 ≤ b.toNat := by
  simp only [opcodes, List.mem_cons, List.not_mem_nil, or_false]
  bv_omega

/-- Settles O3: a word that is not legal does not decode, and an OP write of it raises ILLEGAL_OP (R153). -/
theorem illegalCommandWordRaisesIllegalOp : Obligations.IllegalCommandWordRaisesIllegalOp := by
  refine ⟨decode_ok_iff_legalWord, legalWord_iff, not_mem_opcodes_iff, ⟨nodup_opcodes, rfl⟩, ?_⟩
  intro s w rest hhost hfault hillegal
  have herror : ∃ e, decode w = .error e := by
    cases hdecode : decode w with
    | ok i => simp [(decode_ok_iff_legalWord w).mp ⟨i, hdecode⟩] at hillegal
    | error e => exact ⟨e, rfl⟩
  obtain ⟨e, he⟩ := herror
  have hnotHalted : ¬ (served rest s).fault = true := Bool.eq_false_iff.mp hfault
  calc step s = runWord w (served rest s) := step_write hhost rfl
    _ = .next (raiseFault .illegalOp (served rest s).clearErr) := by rw [runWord_illegal he, if_neg hnotHalted]
    _ = _ := by rw [raiseFault_eq]; rfl

/-- Settles O4: each word is the command word of its instruction. -/
theorem writtenOutWordsDecode : Obligations.WrittenOutWordsDecode :=
  ⟨decode_encode .reset, decode_encode .fillRect, decode_encode (.flush true), decode_encode (.flush false),
    decode_encode (.sendCmd 0x36), decode_encode (.sendCmd 0xFF), decode_encode .sendRawRegion⟩

/-! ### Operand bits that no layout names (30_encoding.md R67, R72, R76) -/

/-- The state with other operand registers. -/
def withOperands (a1 a2 a3 : ArgReg) (s : State) : State := { s with arg1 := a1, arg2 := a2, arg3 := a3 }

/-- The operand registers of the two states agree in the written flags and in the bits the operation's layouts name. -/
def SameNamedBits (i : Instr) (s u : State) : Prop :=
  ∀ k, (u.arg k).written = (s.arg k).written ∧
    (u.arg k).value &&& operandMask i k = (s.arg k).value &&& operandMask i k

/-- A layout that names every bit leaves the register no freedom. -/
theorem SameNamedBits.arg_eq {i : Instr} {s u : State} (h : SameNamedBits i s u) (k : ArgName)
    (hmask : operandMask i k = 0xFFFFFFFF) : u.arg k = s.arg k := by
  obtain ⟨hwritten, hvalue⟩ := h k
  rw [hmask, show (0xFFFFFFFF : Word) = BitVec.allOnes 32 from rfl, BitVec.and_allOnes, BitVec.and_allOnes] at hvalue
  cases hu : u.arg k
  cases hs : s.arg k
  simp_all

/-- A field inside the mask is the same in words that agree under the mask. -/
theorem extractLsb'_eq_of_and_eq {v v' mask : Word} {start len : Nat} (h : v &&& mask = v' &&& mask)
    (hmask : mask.extractLsb' start len = BitVec.allOnes len) : v.extractLsb' start len = v'.extractLsb' start len := by
  have hfield := congrArg (·.extractLsb' start len) h
  simpa only [BitVec.extractLsb'_and, hmask, BitVec.and_allOnes] using hfield

theorem SameNamedBits.loHalf_eq {i : Instr} {s u : State} (h : SameNamedBits i s u) (k : ArgName)
    (hmask : (operandMask i k).extractLsb' 0 16 = BitVec.allOnes 16) :
    loHalf (u.arg k).value = loHalf (s.arg k).value :=
  extractLsb'_eq_of_and_eq (h k).2 hmask

/-- CVT_PACK's layout names three bytes. -/
theorem SameNamedBits.layoutRgb_eq {s u : State} (h : SameNamedBits .cvtPack s u) :
    layoutRgb u.arg1.value = layoutRgb s.arg1.value := by
  have hbits := (h .arg1).2
  have hr := extractLsb'_eq_of_and_eq (start := 0) (len := 8) hbits (by decide)
  have hg := extractLsb'_eq_of_and_eq (start := 8) (len := 8) hbits (by decide)
  have hb := extractLsb'_eq_of_and_eq (start := 16) (len := 8) hbits (by decide)
  exact Rgb.mk.injEq .. ▸ ⟨hr, hg, hb⟩

/-- What an operation takes from its operand registers is in the named bits: its fault, its primitives and its last
write. -/
theorem operation_of_sameNamedBits {i : Instr} {a1 a2 a3 : ArgReg} {s : State}
    (h : SameNamedBits i s (withOperands a1 a2 a3 s)) :
    faultOf i (withOperands a1 a2 a3 s) = faultOf i s ∧ actionsOf i (withOperands a1 a2 a3 s) = actionsOf i s ∧
      ∀ t, lastWrite i (withOperands a1 a2 a3 s) t = lastWrite i s t := by
  cases i with
  | reset | init | scan | flush => exact ⟨rfl, rfl, fun _ => rfl⟩
  | cvtPack => exact ⟨rfl, rfl, fun t => by simp only [lastWrite, h.layoutRgb_eq]⟩
  | cvtUnpack =>
    have hc : layoutColor (withOperands a1 a2 a3 s).arg1.value = layoutColor s.arg1.value :=
      h.loHalf_eq .arg1 (by decide)
    exact ⟨rfl, rfl, fun t => by simp only [lastWrite, hc]⟩
  | clear =>
    have hc : layoutColor (withOperands a1 a2 a3 s).arg3.value = layoutColor s.arg3.value :=
      h.loHalf_eq .arg3 (by decide)
    exact ⟨rfl, rfl, fun t => by simp only [lastWrite, hc]⟩
  | fillRect =>
    obtain rfl : a1 = s.arg1 := h.arg_eq .arg1 rfl
    obtain rfl : a2 = s.arg2 := h.arg_eq .arg2 rfl
    have hc : layoutColor (withOperands s.arg1 s.arg2 a3 s).arg3.value = layoutColor s.arg3.value :=
      h.loHalf_eq .arg3 (by decide)
    exact ⟨rfl, rfl, fun t => by simp only [lastWrite, hc]; rfl⟩
  | blit =>
    obtain rfl : a1 = s.arg1 := h.arg_eq .arg1 rfl
    obtain rfl : a2 = s.arg2 := h.arg_eq .arg2 rfl
    obtain rfl : a3 = s.arg3 := h.arg_eq .arg3 rfl
    exact ⟨rfl, rfl, fun _ => rfl⟩
  | almostEq | setWindow | sendRawRegion =>
    obtain rfl : a1 = s.arg1 := h.arg_eq .arg1 rfl
    obtain rfl : a2 = s.arg2 := h.arg_eq .arg2 rfl
    exact ⟨rfl, rfl, fun _ => rfl⟩
  | sendCmd | sendData =>
    obtain rfl : a1 = s.arg1 := h.arg_eq .arg1 rfl
    exact ⟨rfl, rfl, fun _ => rfl⟩

/-- A run of primitives, with the operand registers replaced in the state it ends in. -/
def ioWithOperands (a1 a2 a3 : ArgReg) : Io → Io
  | .done s => .done (withOperands a1 a2 a3 s)
  | .failed s => .failed (withOperands a1 a2 a3 s)

theorem performOne_withOperands (a1 a2 a3 : ArgReg) (a : Action) (s : State) :
    performOne a (withOperands a1 a2 a3 s) = ioWithOperands a1 a2 a3 (performOne a s) := by
  cases a with
  | pin p l =>
    simp only [performOne, pinWrite, apply_ite (ioWithOperands a1 a2 a3)]
    cases p <;> rfl
  | bus bytes =>
    simp only [performOne, busWrite, apply_ite (ioWithOperands a1 a2 a3)]
    rfl
  | delay ms => rfl

/-- No primitive reads an operand register. -/
theorem perform_withOperands (a1 a2 a3 : ArgReg) (acts : List Action) (s : State) :
    perform acts (withOperands a1 a2 a3 s) = ioWithOperands a1 a2 a3 (perform acts s) := by
  induction acts generalizing s with
  | nil => rfl
  | cons a acts ih =>
    rw [perform, perform, performOne_withOperands]
    cases performOne a s with
    | done t => exact ih t
    | failed t => rfl

theorem firstWrite_withOperands (i : Instr) (a1 a2 a3 : ArgReg) (s : State) :
    firstWrite i (withOperands a1 a2 a3 s) = withOperands a1 a2 a3 (firstWrite i s) := by
  cases i <;> rfl

theorem lastWrite_withOperands (i : Instr) (a1 a2 a3 : ArgReg) (s t : State) :
    lastWrite i s (withOperands a1 a2 a3 t) = withOperands a1 a2 a3 (lastWrite i s t) := by
  cases i <;> rfl

theorem conclude_withOperands {last last' : State → State} {a1 a2 a3 : ArgReg}
    (h : ∀ t, last' (withOperands a1 a2 a3 t) = withOperands a1 a2 a3 (last t)) (r : Io) :
    (ioWithOperands a1 a2 a3 r).conclude last' = withOperands a1 a2 a3 (r.conclude last) := by
  cases r with
  | done t => exact h t
  | failed t => rfl

/-- The rule of an operation carries other operand registers along, as long as they agree in the named bits. -/
theorem ruleOf_withOperands {i : Instr} {a1 a2 a3 : ArgReg} {s : State}
    (h : SameNamedBits i s (withOperands a1 a2 a3 s)) :
    ruleOf i (withOperands a1 a2 a3 s) = withOperands a1 a2 a3 (ruleOf i s) := by
  obtain ⟨hfault, hactions, hlast⟩ := operation_of_sameNamedBits h
  rw [ruleOf_eq, ruleOf_eq, hfault, hactions, firstWrite_withOperands, perform_withOperands]
  cases faultOf i s with
  | some c => rfl
  | none => exact conclude_withOperands (fun t => (hlast _).trans (lastWrite_withOperands i a1 a2 a3 s t)) _

/-- So does the dispatch, which reads the written flags alone. -/
theorem accept_withOperands {i : Instr} {a1 a2 a3 : ArgReg} {s : State}
    (h : SameNamedBits i s (withOperands a1 a2 a3 s)) :
    accept (argsRead i) (ruleOf i) (withOperands a1 a2 a3 s) =
      withOperands a1 a2 a3 (accept (argsRead i) (ruleOf i) s) := by
  have hwritten : ArgsWritten i (withOperands a1 a2 a3 s) ↔ ArgsWritten i s :=
    forall₂_congr fun k _ => by rw [(h k).1]
  rcases accept_cases (argsRead i) (ruleOf i) s with ⟨hf, he⟩ | ⟨hf, ha, he⟩ | ⟨hf, ha, he⟩
  · rw [he]
    exact accept_halted hf
  · rw [he, accept_unwritten (s := withOperands a1 a2 a3 s) hf (mt hwritten.mp ha)]
    rfl
  · rw [he, accept_written (s := withOperands a1 a2 a3 s) hf (hwritten.mpr ha)]
    exact ruleOf_withOperands (s := s.clearErr) h

/-- Settles O56: an operation is its dispatch (`exec_eq`), and the dispatch carries the other registers along. -/
theorem unnamedOperandBitsHaveNoEffect : Obligations.UnnamedOperandBitsHaveNoEffect := by
  intro i s t u v1 v2 v3 h1 h2 h3 ht hu
  have h : SameNamedBits i s (withOperands ⟨v1, s.arg1.written⟩ ⟨v2, s.arg2.written⟩ ⟨v3, s.arg3.written⟩ s) := by
    intro k
    cases k with
    | arg1 => exact ⟨rfl, h1⟩
    | arg2 => exact ⟨rfl, h2⟩
    | arg3 => exact ⟨rfl, h3⟩
  rw [exec_eq] at ht hu
  cases ht
  cases hu
  exact accept_withOperands h

/-! ### The assembler (30_encoding.md R77, R78) -/

theorem loHalf_packHalves (lo hi : BitVec 16) : loHalf (packHalves lo hi) = lo := by
  apply BitVec.eq_of_toNat_eq
  rw [loHalf_toNat, packHalves, append_toNat]
  omega

theorem hiHalf_packHalves (lo hi : BitVec 16) : hiHalf (packHalves lo hi) = hi := by
  apply BitVec.eq_of_toNat_eq
  rw [hiHalf_toNat, packHalves, append_toNat]
  omega

theorem loHalf_setWidth (c : PackedColor) : loHalf (c.setWidth 32) = c := by
  apply BitVec.eq_of_toNat_eq
  rw [loHalf_toNat, BitVec.toNat_setWidth]
  omega

/-- A host write of an operand register is one step. -/
theorem step_writeArg {s : State} {rest : List HostEvent} {k : ArgName} {v : Word}
    (h : s.host = .write 32 (argOffset k) v :: rest) : step s = .next ((served rest s).setArg k v) := by
  rw [step_write h (accessOk_argOffset k), registerAt_argOffset]
  rfl

theorem run_writeArg {s : State} {n : Nat} {rest : List HostEvent} {k : ArgName} {v : Word}
    (h : s.host = .write 32 (argOffset k) v :: rest) :
    Host.Core.run core (n + 1) s = Host.Core.run core n ((served rest s).setArg k v) :=
  run_next (step_writeArg h)

theorem host_setArg_served (rest : List HostEvent) (s : State) (k : ArgName) (v : Word) :
    ((served rest s).setArg k v).host = rest := by
  rw [setArg_host]
  rfl

/-- A host write of an instruction's word to OP is one step, its execution. -/
theorem step_writeOp {s : State} {rest : List HostEvent} {i : Instr} (h : s.host = writeOp i :: rest) :
    step s = exec i (served rest s) :=
  stepRunsTheDecodedInstruction s (encode i) rest i h (decode_encode i)

/-- FILL_RECT on a rectangle inside the buffer, its operands written (41_framebuffer.md R96). -/
theorem exec_fillRect_inside {s : State} (ha : Accepted .fillRect s) (hin : boundsOk .fillRect s = true) :
    exec .fillRect s =
      .next (s.clearErr.setCur
        (fillGrid (layoutX s.arg1.value) (layoutY s.arg1.value) (layoutW s.arg2.value) (layoutH s.arg2.value)
          (layoutColor s.arg3.value) s.cur)) := by
  have hfault : faultOf .fillRect s = none := by simp [faultOf, stateAllows, hin]
  rw [exec_runs ha hfault, perform_silent rfl]
  rfl

/-- The three ARG writes that a line with three operand registers begins with. -/
theorem run_writeArgs {s : State} {a1 a2 a3 : Word} {rest : List HostEvent}
    (hhost : s.host = writeArg1 a1 :: writeArg2 a2 :: writeArg3 a3 :: rest) (n : Nat) :
    ∃ t : State, Host.Core.run core (n + 3) s = Host.Core.run core n t ∧ t.host = rest ∧ t.fault = s.fault ∧
      t.cur = s.cur ∧ t.arg1 = ⟨a1, true⟩ ∧ t.arg2 = ⟨a2, true⟩ ∧ t.arg3 = ⟨a3, true⟩ := by
  have hevents : s.host = .write 32 (argOffset .arg1) a1 :: .write 32 (argOffset .arg2) a2 ::
      .write 32 (argOffset .arg3) a3 :: rest := hhost
  rw [run_writeArg hevents, run_writeArg (host_setArg_served ..), run_writeArg (host_setArg_served ..)]
  exact ⟨_, rfl, by simp [served]⟩

/-- The four events of a FILL_RECT line, served one by one, fill its rectangle if it lies inside the buffer. -/
theorem run_assembleFillRect {s : State} {x y w h : BitVec 16} {c : PackedColor} {rest : List HostEvent}
    (hf : s.fault = false) (hhost : s.host = assembleFillRect x y w h c ++ rest)
    (hin : rectOk x.toNat y.toNat w.toNat h.toNat = true) :
    ∃ t : State, Host.Core.run core 4 s = .next t ∧ t.host = rest ∧ t.fault = false ∧
      t.cur = fillGrid x.toNat y.toNat w.toNat h.toNat c s.cur := by
  obtain ⟨u, hrun, hqueue, hfault, hcur, h1, h2, h3⟩ := run_writeArgs hhost 1
  have haccepted : Accepted .fillRect (served rest u) := by
    refine ⟨hfault.trans hf, fun k _ => ?_⟩
    cases k <;> simp [served, State.arg, h1, h2, h3]
  have hbounds : boundsOk .fillRect (served rest u) = true := by
    simpa [boundsOk, served, h1, h2, layoutX, layoutY, layoutW, layoutH, loHalf_packHalves, hiHalf_packHalves] using hin
  have hexec := exec_fillRect_inside haccepted hbounds
  refine ⟨_, hrun.trans (run_next (k := 0) ((step_writeOp hqueue).trans hexec)), rfl, hfault.trans hf, ?_⟩
  simp [served, h1, h2, h3, hcur, layoutX, layoutY, layoutW, layoutH, layoutColor, loHalf_packHalves,
    hiHalf_packHalves, loHalf_setWidth]

theorem rectOk_pixel (x : Fin WIDTH) (y : Fin HEIGHT) : rectOk x y 1 1 = true := by
  simp [rectOk]

/-- The one-by-one rectangle at (x, y) is that pixel. -/
theorem inRect_pixel (x x' : Fin WIDTH) (y y' : Fin HEIGHT) : inRect x y 1 1 x' y' = true ↔ x' = x ∧ y' = y := by
  rw [inRect_iff, Fin.ext_iff, Fin.ext_iff]
  omega

/-- Settles O59: SETPIX is FILL_RECT on the rectangle that holds the one pixel. -/
theorem assembledSetPixWritesOneCell : Obligations.AssembledSetPixWritesOneCell := by
  intro s x y c rest hf hhost
  have hx : (BitVec.ofNat 16 x).toNat = x := Nat.mod_eq_of_lt (x.isLt.trans (by decide))
  have hy : (BitVec.ofNat 16 y).toNat = y := Nat.mod_eq_of_lt (y.isLt.trans (by decide))
  obtain ⟨t, hrun, hqueue, hfault, hcur⟩ :=
    run_assembleFillRect hf hhost (by rw [hx, hy]; exact rectOk_pixel x y)
  have hcell (x' : Fin WIDTH) (y' : Fin HEIGHT) :
      t.cur.cell x' y' = if x' = x ∧ y' = y then c else s.cur.cell x' y' := by
    simp only [hcur, cell_fillGrid, hx, hy, ← inRect_pixel]
    rfl
  refine ⟨t, hrun, hqueue, hfault, ?_, fun x' y' hother => ?_⟩
  · rw [hcell, if_pos ⟨rfl, rfl⟩]
  · rw [hcell, if_neg (not_and_or.mpr hother)]

/-- Settles O58: each pseudo-instruction is, by definition, the line it stands for; FLUSH.FULL's word is evaluated. -/
theorem pseudoInstructionsExpand : Obligations.PseudoInstructionsExpand :=
  ⟨fun _ _ _ => rfl, fun _ _ _ => rfl, fun _ => rfl, rfl⟩

end Sys2Proof.Proofs
end

section
/-! PROOFS. The statements of 40_color.md: the results of CVT_PACK (R86, R87), CVT_UNPACK (R88) and ALMOST_EQ (R90), the
round-trip law (R89) and the laws of AlmostEq (R91). -/

namespace Sys2Proof.Proofs

open Machine Laws

/-! ### Operations without primitives, run to their end -/

/-- An accepted operation that raises no fault and asks for no primitive makes its last write and nothing else but the
clearing of ERR. -/
theorem exec_silent {i : Instr} {s : State} (ha : Accepted i s) (hc : faultOf i s = none)
    (hi : emitsEvents i = false) : exec i s = .next (lastWrite i s.clearErr s.clearErr) := by
  rw [exec_runs ha hc, perform_silent hi, Io.conclude]

/-! ### CVT_PACK (R86, R87) -/

theorem layoutRgb_r_toNat (a : Word) : (layoutRgb a).r.toNat = a.toNat % 256 := by
  rw [layoutRgb, field_toNat]
  omega

theorem layoutRgb_g_toNat (a : Word) : (layoutRgb a).g.toNat = a.toNat / 256 % 256 := field_toNat 8 8 a

theorem layoutRgb_b_toNat (a : Word) : (layoutRgb a).b.toNat = a.toNat / 65536 % 256 := field_toNat 16 8 a

/-- The stored form of a packed colour is its natural form with the two bytes exchanged. -/
theorem fromChannels_toNat (c : Rgb) :
    (fromChannels c).toNat =
      (c.r.toNat / 8 * 2048 + c.g.toNat / 4 * 32 + c.b.toNat / 8) % 256 * 256 +
        (c.r.toNat / 8 * 2048 + c.g.toNat / 4 * 32 + c.b.toNat / 8) / 256 := by
  rw [← swap16_swap16 (fromChannels c), swap16_toNat, fromChannels_natural]

/-- Settles O21. -/
theorem cvtPackResult : Obligations.CvtPackResult := by
  intro s ha a n
  have hresult : (fromChannels (layoutRgb s.arg1.value)).setWidth 32 = BitVec.ofNat 32 (n % 256 * 256 + n / 256) := by
    rw [← BitVec.ofNat_toNat, fromChannels_toNat, layoutRgb_r_toNat, layoutRgb_g_toNat, layoutRgb_b_toNat]
  rw [exec_silent ha rfl rfl, ← hresult]
  rfl

/-! ### CVT_UNPACK (R88) -/

/-- The word 0x00 : b : g : r on naturals. -/
theorem rgbWord_eq_ofNat (c : Rgb) :
    rgbWord c = BitVec.ofNat 32 (c.b.toNat * 65536 + c.g.toNat * 256 + c.r.toNat) := by
  have := c.r.isLt
  have := c.g.isLt
  have := c.b.isLt
  apply BitVec.eq_of_toNat_eq
  rw [rgbWord, append_toNat, append_toNat, append_toNat, BitVec.toNat_ofNat, BitVec.toNat_ofNat]
  omega

/-- Settles O22. -/
theorem cvtUnpackResult : Obligations.CvtUnpackResult := by
  intro s ha a n five six
  have hnatural : (swap16 (layoutColor s.arg1.value)).toNat = n := by
    rw [swap16_toNat, layoutColor, loHalf_toNat]
  have hresult : rgbWord (channels (layoutColor s.arg1.value)) =
      BitVec.ofNat 32 (five (n % 32) * 65536 + six (n / 32 % 64) * 256 + five (n / 2048)) := by
    rw [rgbWord_eq_ofNat, channels_r_toNat, channels_g_toNat, channels_b_toNat, hnatural]
  rw [exec_silent ha rfl rfl, ← hresult]
  rfl

/-! ### ALMOST_EQ (R90) -/

/-- The two halves of a word are the same colour exactly when they are the same number. -/
theorem layoutA_eq_layoutB_iff (a : Word) : layoutA a = layoutB a ↔ a.toNat % 65536 = a.toNat / 65536 := by
  rw [← BitVec.toNat_inj, layoutA, layoutB, loHalf_toNat, hiHalf_toNat]

/-- Settles O23. -/
theorem almostEqResult : Obligations.AlmostEqResult := by
  intro s ha a b t natural five six apart
  have hnaturalA : (swap16 (layoutA s.arg1.value)).toNat = natural a := by
    rw [swap16_toNat, layoutA, loHalf_toNat]
  have hnaturalB : (swap16 (layoutB s.arg1.value)).toNat = natural b := by
    rw [swap16_toNat, layoutB, hiHalf_toNat]
  have htest : almostEq (layoutA s.arg1.value) (layoutB s.arg1.value) (layoutU32 s.arg2.value) = true ↔
      a = b ∨ (apart (five (natural a / 2048)) (five (natural b / 2048)) ≤ t * 8 ∧
        apart (six (natural a / 32 % 64)) (six (natural b / 32 % 64)) ≤ t * 4 ∧
        apart (five (natural a % 32)) (five (natural b % 32)) ≤ t * 8) := by
    rw [almostEq_iff, layoutA_eq_layoutB_iff]
    simp only [channelDistance, channels_r_toNat, channels_g_toNat, channels_b_toNat, hnaturalA, hnaturalB]
    rfl
  rw [exec_silent ha rfl rfl, ← if_congr htest rfl rfl]
  rfl

/-! ### The round trip (R89): each lane for itself (R92) -/

/-- Packed and unpacked, each channel is the expansion of its own top bits. -/
theorem channels_fromChannels (c : Rgb) :
    channels (fromChannels c) =
      ⟨expand5 (c.r.extractLsb' 3 5), expand6 (c.g.extractLsb' 2 6), expand5 (c.b.extractLsb' 3 5)⟩ := by
  have := c.r.isLt
  have := c.g.isLt
  have := c.b.isLt
  have hr : (swap16 (fromChannels c)).extractLsb' 11 5 = c.r.extractLsb' 3 5 := by
    apply BitVec.eq_of_toNat_eq
    rw [field_toNat, field_toNat, fromChannels_natural]
    omega
  have hg : (swap16 (fromChannels c)).extractLsb' 5 6 = c.g.extractLsb' 2 6 := by
    apply BitVec.eq_of_toNat_eq
    rw [field_toNat, field_toNat, fromChannels_natural]
    omega
  have hb : (swap16 (fromChannels c)).extractLsb' 0 5 = c.b.extractLsb' 3 5 := by
    apply BitVec.eq_of_toNat_eq
    rw [field_toNat, field_toNat, fromChannels_natural]
    omega
  rw [channels, hr, hg, hb]

theorem expand5_eq_zero_iff (q : BitVec 5) : expand5 q = 0 ↔ q.toNat = 0 := by
  rw [← BitVec.toNat_inj, expand5_toNat]
  split <;> simp_all

theorem expand6_eq_zero_iff (q : BitVec 6) : expand6 q = 0 ↔ q.toNat = 0 := by
  rw [← BitVec.toNat_inj, expand6_toNat]
  split <;> simp_all

/-- A red or blue channel against the expansion of its top five bits, the top of the eight values that share them. -/
theorem expand5_topBits (v : Byte) :
    channelDistance (expand5 (v.extractLsb' 3 5)) v ≤ 7 ∧ (expand5 (v.extractLsb' 3 5) = 0 ↔ v.toNat < 8) := by
  have := v.isLt
  rw [channelDistance, expand5_eq_zero_iff, expand5_toNat, field_toNat]
  split <;> omega

/-- A green channel against the expansion of its top six bits. -/
theorem expand6_topBits (v : Byte) :
    channelDistance (expand6 (v.extractLsb' 2 6)) v ≤ 3 ∧ (expand6 (v.extractLsb' 2 6) = 0 ↔ v.toNat < 4) := by
  have := v.isLt
  rw [channelDistance, expand6_eq_zero_iff, expand6_toNat, field_toNat]
  split <;> omega

/-- Settles O24: the lanes do not mix (`channels_fromChannels`), and each is within its own quantisation. -/
theorem roundTripIsWithinTheQuantisation : Obligations.RoundTripIsWithinTheQuantisation := by
  refine ⟨fun c => ?_, by decide, by decide⟩
  rw [channels_fromChannels]
  obtain ⟨hr, hr0⟩ := expand5_topBits c.r
  obtain ⟨hg, hg0⟩ := expand6_topBits c.g
  obtain ⟨hb, hb0⟩ := expand5_topBits c.b
  exact ⟨hr, hg, hb, hr0, hg0, hb0⟩

/-! ### Distances of channels -/

theorem channelDistance_comm (a b : Byte) : channelDistance a b = channelDistance b a := Nat.add_comm _ _

theorem channelDistance_eq_zero_iff (a b : Byte) : channelDistance a b = 0 ↔ a = b := by
  rw [← BitVec.toNat_inj, channelDistance]
  omega

theorem channelDistance_lt (a b : Byte) : channelDistance a b < 256 := by
  have := a.isLt
  have := b.isLt
  rw [channelDistance]
  omega

/-! ### Groups and colours are determined by their channels -/

theorem expand5_injective : Function.Injective expand5 := by
  intro p q h
  have hpq := congrArg BitVec.toNat h
  rw [expand5_toNat, expand5_toNat] at hpq
  apply BitVec.eq_of_toNat_eq
  split at hpq <;> split at hpq <;> omega

theorem expand6_injective : Function.Injective expand6 := by
  intro p q h
  have hpq := congrArg BitVec.toNat h
  rw [expand6_toNat, expand6_toNat] at hpq
  apply BitVec.eq_of_toNat_eq
  split at hpq <;> split at hpq <;> omega

/-- The three groups N[15:11], N[10:5] and N[4:0] are all of N. -/
theorem eq_of_groups_eq {m n : BitVec 16} (hr : m.extractLsb' 11 5 = n.extractLsb' 11 5)
    (hg : m.extractLsb' 5 6 = n.extractLsb' 5 6) (hb : m.extractLsb' 0 5 = n.extractLsb' 0 5) : m = n := by
  have := m.isLt
  have := n.isLt
  rw [← BitVec.toNat_inj, field_toNat, field_toNat] at hr hg hb
  apply BitVec.eq_of_toNat_eq
  omega

theorem channels_injective : Function.Injective channels := by
  intro a b h
  obtain ⟨hr, hg, hb⟩ := Rgb.mk.inj h
  have hswap : swap16 a = swap16 b :=
    eq_of_groups_eq (expand5_injective hr) (expand6_injective hg) (expand5_injective hb)
  rw [← swap16_swap16 a, hswap, swap16_swap16]

/-! ### The laws of AlmostEq (R91) -/

theorem almostEq_refl (c : PackedColor) (t : Nat) : almostEq c c t = true :=
  (almostEq_iff c c t).mpr (.inl rfl)

theorem almostEq_comm (a b : PackedColor) (t : Nat) : almostEq a b t = almostEq b a t := by
  rw [Bool.eq_iff_iff, almostEq_iff, almostEq_iff, eq_comm, channelDistance_comm (channels a).r,
    channelDistance_comm (channels a).g, channelDistance_comm (channels a).b]

/-- At tolerance 0 no channel may differ, and the channels determine the colour. -/
theorem almostEq_zero_iff (a b : PackedColor) : almostEq a b 0 = true ↔ a = b := by
  rw [almostEq_iff, Nat.zero_mul, Nat.le_zero, Nat.le_zero, Nat.le_zero, channelDistance_eq_zero_iff,
    channelDistance_eq_zero_iff, channelDistance_eq_zero_iff]
  refine ⟨?_, .inl⟩
  rintro (h | ⟨hr, hg, hb⟩)
  · exact h
  · exact channels_injective ((Rgb.mk.injEq ..).mpr ⟨hr, hg, hb⟩)

/-- From tolerance 64 both thresholds are at least 256. -/
theorem almostEq_of_le {t : Nat} (ht : 64 ≤ t) (a b : PackedColor) : almostEq a b t = true := by
  have hr := channelDistance_lt (channels a).r (channels b).r
  have hg := channelDistance_lt (channels a).g (channels b).g
  have hb := channelDistance_lt (channels a).b (channels b).b
  exact (almostEq_iff a b t).mpr (.inr ⟨by omega, by omega, by omega⟩)

theorem expand5_toNat_of_ne_zero {q : BitVec 5} (hq : q ≠ 0) : (expand5 q).toNat = 8 * q.toNat + 7 := by
  have hne : q.toNat ≠ 0 := BitVec.toNat_ne.mp hq
  rw [expand5_toNat, if_neg hne]

theorem expand6_toNat_of_ne_zero {q : BitVec 6} (hq : q ≠ 0) : (expand6 q).toNat = 4 * q.toNat + 3 := by
  have hne : q.toNat ≠ 0 := BitVec.toNat_ne.mp hq
  rw [expand6_toNat, if_neg hne]

/-- Nonzero groups of a red or blue channel: the test is on the distance of the groups. -/
theorem channelDistance_expand5_le_iff {p q : BitVec 5} (hp : p ≠ 0) (hq : q ≠ 0) (t : Nat) :
    channelDistance (expand5 p) (expand5 q) ≤ t * 8 ↔ (p.toNat - q.toNat) + (q.toNat - p.toNat) ≤ t := by
  rw [channelDistance, expand5_toNat_of_ne_zero hp, expand5_toNat_of_ne_zero hq]
  omega

/-- The zero group against another: its expansion is 0, so the other's 7 counts. -/
theorem channelDistance_expand5_zero_le_iff {q : BitVec 5} (hq : q ≠ 0) (t : Nat) :
    channelDistance (expand5 0) (expand5 q) ≤ t * 8 ↔ 1 ≤ t ∧ q.toNat ≤ t - 1 := by
  have hzero : (expand5 0).toNat = 0 := rfl
  rw [channelDistance, hzero, expand5_toNat_of_ne_zero hq]
  omega

/-- Nonzero groups of a green channel. -/
theorem channelDistance_expand6_le_iff {p q : BitVec 6} (hp : p ≠ 0) (hq : q ≠ 0) (t : Nat) :
    channelDistance (expand6 p) (expand6 q) ≤ t * 4 ↔ (p.toNat - q.toNat) + (q.toNat - p.toNat) ≤ t := by
  rw [channelDistance, expand6_toNat_of_ne_zero hp, expand6_toNat_of_ne_zero hq]
  omega

/-- The zero group of a green channel against another. -/
theorem channelDistance_expand6_zero_le_iff {q : BitVec 6} (hq : q ≠ 0) (t : Nat) :
    channelDistance (expand6 0) (expand6 q) ≤ t * 4 ↔ 1 ≤ t ∧ q.toNat ≤ t - 1 := by
  have hzero : (expand6 0).toNat = 0 := rfl
  rw [channelDistance, hzero, expand6_toNat_of_ne_zero hq]
  omega

/-- With t = 2, the red groups 0, 1 and 3 (stored 0x0000, 0x0008 and 0x0018) break transitivity. -/
theorem almostEq_not_transitive :
    almostEq 0x0000 0x0008 2 = true ∧ almostEq 0x0008 0x0018 2 = true ∧ almostEq 0x0000 0x0018 2 = false := by
  decide

/-- Settles O25. -/
theorem almostEqLaws : Obligations.AlmostEqLaws :=
  ⟨almostEq_refl, almostEq_comm, almostEq_zero_iff, fun a b _ ht => almostEq_of_le ht a b,
    fun _ _ t hp hq => channelDistance_expand5_le_iff hp hq t,
    fun _ t hq => channelDistance_expand5_zero_le_iff hq t,
    fun _ _ t hp hq => channelDistance_expand6_le_iff hp hq t,
    fun _ t hq => channelDistance_expand6_zero_le_iff hq t, almostEq_not_transitive⟩

end Sys2Proof.Proofs
end

section
/-! PROOFS. The statements of 41_framebuffer.md: the cells FILL_RECT (R96, R97), CLEAR (R98, R99) and BLIT (R100) leave,
and the bytes of RawBytes (R103). -/

namespace Sys2Proof.Proofs

open Machine Laws

/-! ### Drawing operations inside their bounds, run to their end -/

/-- What the statements ask for is what the rule checks (60_exceptions.md R158, R159). -/
theorem faultOf_eq_none {i : Instr} {s : State} (hstate : stateAllows i s.proto = true) (hbounds : boundsAllow i s) :
    faultOf i s = none := by
  simp [faultOf, hstate, (boundsOk_iff i s).mpr hbounds]

/-- A colour operand is the low half of its register as a number. -/
theorem layoutColor_eq_ofNat (a : Word) : layoutColor a = BitVec.ofNat 16 a.toNat := by
  apply BitVec.eq_of_toNat_eq
  rw [layoutColor, loHalf_toNat, BitVec.toNat_ofNat]

/-! ### FILL_RECT (R96, R97) -/

/-- Settles O26. -/
theorem fillRectWritesExactlyTheRectangle : Obligations.FillRectWritesExactlyTheRectangle := by
  intro s ha hin
  refine ⟨_, exec_silent ha (faultOf_eq_none rfl hin) rfl, fun x y => ?_⟩
  rw [cell_fillGrid, layoutColor_eq_ofNat]
  simp only [inRect_iff, layoutX, layoutY, layoutW, layoutH, loHalf_toNat, hiHalf_toNat, clearErr_arg1, clearErr_arg2,
    clearErr_arg3, clearErr_cur]

/-! ### CLEAR (R98, R99) -/

/-- Settles O27. -/
theorem clearWritesEveryCell : Obligations.ClearWritesEveryCell := by
  intro s ha
  refine ⟨_, exec_silent ha rfl rfl, fun i => ?_⟩
  rw [Grid.at, Grid.cell_const, layoutColor_eq_ofNat, clearErr_arg3]

/-- Every cell of the grid lies in the rectangle that is the whole grid. -/
theorem fillGrid_whole (c : PackedColor) (g : Grid) : fillGrid 0 0 WIDTH HEIGHT c g = Grid.const c := by
  refine Grid.ext_cell fun x y => ?_
  have hin : inRect 0 0 WIDTH HEIGHT x y = true := (inRect_iff ..).mpr (by omega)
  rw [cell_fillGrid, if_pos hin, Grid.cell_const]

theorem argsWritten_clear_iff (s : State) : ArgsWritten .clear s ↔ s.arg3.written = true := by
  simp [ArgsWritten, argsRead, State.arg]

theorem argsWritten_fillRect_iff (s : State) :
    ArgsWritten .fillRect s ↔ s.arg1.written = true ∧ s.arg2.written = true ∧ s.arg3.written = true := by
  simp [ArgsWritten, argsRead, State.arg]

/-- R99 on operands that are written. -/
theorem exec_clear_eq_exec_fillRect {s : State} (ha : Accepted .fillRect s) (h1 : s.arg1.value = 0)
    (h2 : s.arg2.value = 0x011800F0) : exec .clear s = exec .fillRect s := by
  obtain ⟨hfault, hargs⟩ := ha
  obtain ⟨-, -, hwritten⟩ := (argsWritten_fillRect_iff s).mp hargs
  have hclear : Accepted .clear s := ⟨hfault, (argsWritten_clear_iff s).mpr hwritten⟩
  have hin : boundsOk .fillRect s = true := by rw [boundsOk, h1, h2]; rfl
  rw [exec_silent hclear rfl rfl, exec_fillRect_inside ⟨hfault, hargs⟩ hin, h1, h2]
  show _ = Host.Outcome.next (s.clearErr.setCur (fillGrid 0 0 WIDTH HEIGHT (layoutColor s.arg3.value) s.cur))
  rw [fillGrid_whole]
  rfl

/-- A rule raises STATE or BOUNDS only; UNWRITTEN_ARG is the dispatch's (60_exceptions.md R155). -/
theorem faultOf_ne_unwrittenArg (i : Instr) (s : State) : faultOf i s ≠ some .unwrittenArg := by
  rw [faultOf]
  split
  · simp
  · split <;> simp

/-- On a block that never faulted an operation reports UNWRITTEN_ARG exactly when it reads an unwritten register. -/
theorem exec_faultCode_unwrittenArg_iff {i : Instr} {s t : State} (hf : s.fault = false) (hc : s.faultCode = none)
    (h : exec i s = .next t) : t.faultCode = some .unwrittenArg ↔ ¬ ArgsWritten i s := by
  rcases exec_cases h with ⟨hhalt, -⟩ | ⟨-, ha, rfl⟩ | ⟨-, ha, c, hraise, rfl⟩ | ⟨-, ha, -, io, rfl⟩ |
    ⟨-, ha, -, before, a, _, io, -, -, ht⟩
  · simp [hf] at hhalt
  · simp [ha, hc]
  · have hne : c ≠ .unwrittenArg := fun he => faultOf_ne_unwrittenArg i s (he ▸ hraise)
    simp [ha, hc, hne]
  · simp [ha, hc, concluded_faultCode]
  · have hkept : t.faultCode = s.faultCode := ht ▸ stopped_faultCode i s.clearErr before a io
    simp [ha, hc, hkept]

/-- Settles O28. -/
theorem clearIsTheFullFill : Obligations.ClearIsTheFullFill := by
  refine ⟨fun _ => exec_clear_eq_exec_fillRect, fun s hf hc => ?_⟩
  obtain ⟨t, ht⟩ := exec_next .clear s
  obtain ⟨u, hu⟩ := exec_next .fillRect s
  refine ⟨t, u, ht, hu, ?_, ?_⟩
  · rw [exec_faultCode_unwrittenArg_iff hf hc ht, argsWritten_clear_iff, Bool.not_eq_true]
  · rw [exec_faultCode_unwrittenArg_iff hf hc hu, argsWritten_fillRect_iff]
    simp only [not_and_or, Bool.not_eq_true]

/-! ### BLIT (R100) -/

/-- Settles O29. -/
theorem blitWritesTheOverlap : Obligations.BlitWritesTheOverlap := by
  intro s ha hin
  refine ⟨_, exec_silent ha (faultOf_eq_none rfl hin) rfl, fun x y => ?_⟩
  rw [cell_blitGrid]
  simp only [Bool.and_eq_true, decide_eq_true_eq, inRect_iff, and_assoc, layoutX, layoutY, layoutW, layoutH, layoutSX,
    layoutSY, loHalf_toNat, hiHalf_toNat, clearErr_arg1, clearErr_arg2, clearErr_arg3, clearErr_cur, clearErr_source]

/-! ### RawBytes (R103) -/

/-- Lists of one length `n`, one after the other: entry `n * q + r` is entry `r` of list `q`. -/
theorem getElem?_flatMap_of_length_eq {α β : Type} {f : α → List β} {n : Nat} (hf : ∀ a, (f a).length = n)
    (l : List α) (q : Nat) {r : Nat} (hr : r < n) : (l.flatMap f)[n * q + r]? = l[q]?.bind fun a => (f a)[r]? := by
  induction l generalizing q with
  | nil => simp
  | cons a as ih =>
    rw [List.flatMap_cons]
    cases q with
    | zero => simp [List.getElem?_append_left, hf, hr]
    | succ q =>
      have hpast : n * (q + 1) + r = n + (n * q + r) := by ring
      rw [hpast, List.getElem?_append_right (by rw [hf]; omega), hf, Nat.add_sub_cancel_left, ih]
      rfl

theorem length_cellBytes (c : PackedColor) : (cellBytes c).length = 2 := rfl

/-- Byte `b` of cell `x` of a row. -/
theorem getElem?_rowBytes (row : Vector PackedColor WIDTH) {x b : Nat} (hx : x < WIDTH) (hb : b < 2) :
    (rowBytes row)[2 * x + b]? = (cellBytes row[x])[b]? := by
  rw [rowBytes, getElem?_flatMap_of_length_eq length_cellBytes _ _ hb]
  simp [hx]

/-- Cell `240 * y + x` is column `x` of row `y` (10_state.md R24). -/
theorem grid_at_eq_cell (g : Grid) {i : Fin NCELLS} (x : Fin WIDTH) (y : Fin HEIGHT) (hi : i.val = 240 * y + x) :
    g.at i = g.cell x y := by
  have hlt : x.val < 240 := x.isLt
  have hx : i.val % 240 = x := by omega
  have hy : i.val / 240 = y := by omega
  exact congrArg₂ g.cell (Fin.ext hx) (Fin.ext hy)

/-- Byte `b` of the `k`-th cell that RawBytes serialises (R102): it stands in row `top + k / 240`, column `k % 240`. -/
theorem getElem?_rawBytes (g : Grid) {top bottom k b : Nat} {i : Fin NCELLS} (hk : k < (bottom + 1 - top) * 240)
    (hb : b < 2) (hi : i.val = 240 * top + k) : (rawBytes g top bottom)[2 * k + b]? = (cellBytes (g.at i))[b]? := by
  have hi' : 240 * top + k < 67200 := hi ▸ i.isLt
  have hx : k % 240 < 240 := Nat.mod_lt _ (by decide)
  have hy : top + k / 240 < 280 := by omega
  have hrow : k / 240 < bottom + 1 - top := by omega
  have hcell : i.val = 240 * (top + k / 240) + k % 240 := by omega
  have hat : g.at i = g.rows[top + k / 240][k % 240] := grid_at_eq_cell g ⟨_, hx⟩ ⟨_, hy⟩ hcell
  have hsplit : 2 * k + b = 480 * (k / 240) + (2 * (k % 240) + b) := by omega
  have hoffset : 2 * (k % 240) + b < 480 := by omega
  rw [rawBytes, hsplit, getElem?_flatMap_of_length_eq length_rowBytes _ _ hoffset, List.getElem?_take_of_lt hrow,
    List.getElem?_drop, hat, ← getElem?_rowBytes _ hx hb]
  simp [hy]

/-- The natural form of a cell has its two bytes exchanged. -/
theorem hi8_swap16 (v : BitVec 16) : hi8 (swap16 v) = lo8 v := by
  apply BitVec.eq_of_toNat_eq
  rw [hi8_toNat, swap16_toNat, lo8_toNat]
  omega

theorem lo8_swap16 (v : BitVec 16) : lo8 (swap16 v) = hi8 v := by
  rw [← swap16_swap16 v, hi8_swap16, swap16_swap16]

/-- Settles O30. -/
theorem rawBytesAreTheCellsInOrder : Obligations.RawBytesAreTheCellsInOrder := by
  refine ⟨fun g top bottom htop hbottom => ⟨?_, fun k i hk hi => ?_⟩, fun g => length_rawBytes g 0 279 (by decide)⟩
  · rw [length_rawBytes g top bottom (Nat.lt_succ_of_le hbottom), Nat.sub_add_comm htop]
  · rw [← Nat.sub_add_comm htop] at hk
    rw [hi8_swap16, lo8_swap16]
    exact ⟨getElem?_rawBytes g hk (b := 0) (by decide) hi, getElem?_rawBytes g hk (b := 1) (by decide) hi⟩

end Sys2Proof.Proofs
end

section
/-! PROOFS. The statements of 42_scanner.md: what SCAN answers (R106, R107, R109), and the scanner's tolerance lane by
lane (R110). -/

namespace Sys2Proof.Proofs

open Machine Laws

/-! ### SCAN (R106, R107, R109) -/

/-- The row test the scan computes is the one the statements speak of: the scanner's tolerance is 2. -/
theorem rowDirty_eq_true_iff_RowDirty (cur prev : Grid) (y : Fin HEIGHT) :
    rowDirty cur prev y = true ↔ RowDirty cur prev y :=
  rowDirty_iff cur prev y

theorem regionWord_some_toNat (top bottom : Fin HEIGHT) :
    (regionWord (some (top, bottom))).toNat = bottom * 65536 + top := by
  have htop : top.val < 280 := top.isLt
  have hbottom : bottom.val < 280 := bottom.isLt
  rw [regionWord, append_toNat, BitVec.toNat_ofNat, BitVec.toNat_ofNat]
  omega

/-- The word of a region is never the word of Empty: a row number is below 280. -/
theorem regionWord_eq_empty_iff (region : Option (Fin HEIGHT × Fin HEIGHT)) :
    regionWord region = 0xFFFFFFFF ↔ region = none := by
  cases region with
  | none => simp [regionWord]
  | some rows =>
    obtain ⟨top, bottom⟩ := rows
    have htop : top.val < 280 := top.isLt
    have hbottom : bottom.val < 280 := bottom.isLt
    have hword : (0xFFFFFFFF : Word).toNat = 4294967295 := rfl
    rw [← BitVec.toNat_inj, regionWord_some_toNat, hword]
    simp only [reduceCtorEq, iff_false]
    omega

/-- Settles O31, along the two answers of the scan (`scan_cases`). -/
theorem scanFindsTheDirtyRows : Obligations.ScanFindsTheDirtyRows := by
  intro s ha
  refine ⟨regionWord (scan s.cur s.prev), exec_silent ha rfl rfl, ?_⟩
  rw [ne_eq, regionWord_eq_empty_iff]
  simp only [← rowDirty_eq_true_iff_RowDirty]
  rcases scan_cases s.cur s.prev with ⟨hscan, hclean⟩ | ⟨top, bottom, hscan, hle, htop, hbottom, hwithin⟩
  · rw [hscan]
    exact ⟨iff_of_true rfl fun y => by simp [hclean y], fun hne => absurd rfl hne⟩
  · rw [hscan]
    refine ⟨iff_of_false (by simp) fun hclean => hclean top htop,
      fun _ => ⟨top, bottom, regionWord_some_toNat top bottom, hle, htop, hbottom, fun y houtside hdirty => ?_⟩⟩
    obtain ⟨habove, hbelow⟩ := hwithin y hdirty
    omega

/-! ### The scanner's tolerance (R110) -/

/-- R110 for two groups of one lane: equal, or both nonzero and at most 2 apart, or one zero and the other 1. -/
def GroupsClose (p q : Nat) : Prop :=
  p = q ∨ (p ≠ 0 ∧ q ≠ 0 ∧ p ≤ q + 2 ∧ q ≤ p + 2) ∨ (p = 0 ∧ q = 1) ∨ (p = 1 ∧ q = 0)

theorem groupsClose_refl (p : Nat) : GroupsClose p p := .inl rfl

/-- Expanded groups are within two steps of the lane's expansion (8 for red and blue, 4 for green) exactly when the
groups are close: a nonzero group stands `step - 1` above its multiple of the step, so against 0 only group 1 is near
enough. -/
theorem channelDistance_le_two_steps_iff {step : Nat} (hstep : step = 8 ∨ step = 4) {x y : Byte} {p q : Nat}
    (hx : x.toNat = if p = 0 then 0 else step * p + (step - 1))
    (hy : y.toNat = if q = 0 then 0 else step * q + (step - 1)) :
    channelDistance x y ≤ 2 * step ↔ GroupsClose p q := by
  rw [channelDistance, GroupsClose, hx, hy]
  rcases hstep with rfl | rfl <;> split <;> split <;> omega

/-- Settles O32. Equal colours have equal groups; for all others each lane's threshold is two steps. -/
theorem scanToleranceLaneByLane : Obligations.ScanToleranceLaneByLane := by
  intro a b close n m
  have hr : channelDistance (channels a).r (channels b).r ≤ SCAN_TOL * 8 ↔ close (n / 2048) (m / 2048) :=
    channelDistance_le_two_steps_iff (.inl rfl) (channels_r_toNat a) (channels_r_toNat b)
  have hg : channelDistance (channels a).g (channels b).g ≤ SCAN_TOL * 4 ↔ close (n / 32 % 64) (m / 32 % 64) :=
    channelDistance_le_two_steps_iff (.inr rfl) (channels_g_toNat a) (channels_g_toNat b)
  have hb : channelDistance (channels a).b (channels b).b ≤ SCAN_TOL * 8 ↔ close (n % 32) (m % 32) :=
    channelDistance_le_two_steps_iff (.inl rfl) (channels_b_toNat a) (channels_b_toNat b)
  rw [almostEq_iff, hr, hg, hb]
  refine or_iff_right_of_imp ?_
  rintro rfl
  exact ⟨groupsClose_refl _, groupsClose_refl _, groupsClose_refl _⟩

end Sys2Proof.Proofs
end

section
/-! PROOFS. The statements of 43_window.md: the window SET_WINDOW sends (R113 to R117). -/

namespace Sys2Proof.Proofs

open Machine Laws

/-! ### Operations that only send, run to their end -/

@[simp] theorem ran_dcLevel (s : State) (es : List Event) (io : IoOracle) :
    (s.ran es io).dcLevel = es.foldl (levelAfter .dc) s.dcLevel := rfl

/-- Events that leave the reset line as it was change the trace, the mode line's level and the oracle only. -/
theorem ran_eq_of_rstLevel {s : State} {es : List Event} (io : IoOracle)
    (hrst : es.foldl (levelAfter .rst) s.rstLevel = s.rstLevel) :
    s.ran es io = { s with trace := s.trace ++ es, dcLevel := es.foldl (levelAfter .dc) s.dcLevel, io := io } := by
  rw [State.ran, hrst]

/-- No primitive depends on ERR. -/
theorem eventsOf_clearErr (i : Instr) (s : State) : eventsOf i s.clearErr = eventsOf i s := by
  cases i <;> rfl

/-! ### SET_WINDOW (R113, R115 to R117) -/

/-- Inside the bounds the bounds sent are the inclusive ends, the rows 20 further down (R116, R117). -/
theorem eventsOf_setWindow {s : State} (hbounds : boundsAllow .setWindow s) :
    eventsOf .setWindow s =
      windowEvents s.cfg (s.arg1.value.toNat % 65536) (s.arg2.value.toNat % 65536 - 1)
        (s.arg1.value.toNat / 65536 + 20) (s.arg2.value.toNat / 65536 + 19) := by
  obtain ⟨hcols, hright, hrows, hbottom⟩ := hbounds
  simp only [eventsOf, actionsOf, layoutX, layoutY, loHalf_toNat, hiHalf_toNat]
  exact emitWindow_events s.cfg _ _ _ _ hcols hright hrows hbottom

/-- Settles O33: SET_WINDOW performs the window's primitives and writes nothing besides, and a window drives the mode
line only. -/
theorem setWindowSendsTheInclusiveBounds : Obligations.SetWindowSendsTheInclusiveBounds := by
  intro s ha hready hbounds hio
  have hstate : stateAllows .setWindow s.proto = true := by rw [hready]; rfl
  have hevents := (eventsOf_clearErr .setWindow s).trans (eventsOf_setWindow hbounds)
  obtain ⟨io, hexec⟩ := exec_allOk ha (faultOf_eq_none hstate hbounds) hio
  refine ⟨s.clearErr.ran (eventsOf .setWindow s.clearErr) io, hexec, ?_, ?_, ?_⟩
  · rw [ran_trace, hevents, clearErr_trace]
  · rw [ran_dcLevel, hevents, dcLevel_windowEvents]
  · exact ran_eq_of_rstLevel io (by rw [hevents, rstLevel_windowEvents])

end Sys2Proof.Proofs
end

section
/-! PROOFS. The statements of 44_transmit.md: what SEND_CMD (R122, R123), SEND_DATA (R124 to R126) and SEND_RAW_REGION
(R127, R128) send with every write ok, and where an operation stops when a write fails (R129). -/

namespace Sys2Proof.Proofs

open Machine Laws

/-! ### Where an operation stops (R129, 60_exceptions.md R157) -/

/-- The state with other draws of the I/O oracle. -/
def withIo (io : IoOracle) (s : State) : State := { s with io := io }

/-- The faults an operation raises and the primitives it asks for do not depend on the oracle. -/
theorem faultOf_withIo (i : Instr) (io : IoOracle) (s : State) : faultOf i (withIo io s) = faultOf i s := by
  cases i <;> rfl

theorem eventsOf_withIo (i : Instr) (io : IoOracle) (s : State) : eventsOf i (withIo io s) = eventsOf i s := by
  cases i <;> rfl

/-- With draws that are all ok, the operation appends all its events. -/
theorem exec_withIo_trace {i : Instr} {s u : State} {io : IoOracle} (ha : Accepted i s) (hc : faultOf i s = none)
    (hio : IoAllOk (withIo io s)) (hu : exec i (withIo io s) = .next u) :
    u.trace = s.trace ++ eventsOf i s.clearErr := by
  obtain ⟨io', hexec⟩ := exec_allOk (s := withIo io s) ha ((faultOf_withIo i io s).trans hc) hio
  cases hu.symm.trans hexec
  rw [concluded_trace]
  exact congrArg (s.trace ++ ·) (eventsOf_withIo i io s.clearErr)

theorem stopped_trace (i : Instr) (s : State) (before : List Action) (a : Action) (io : IoOracle) :
    (stopped i s before a io).trace = s.trace ++ before.map Action.event ++ [a.failEvent] := by
  rw [stopped, setIoError_trace, ran_trace, firstWrite_trace, List.append_assoc]

/-- What an I/O error leaves: FAULT and its code, RESULT, both grids and the time sample. -/
def keptByIoError (s : State) : Bool × Option FaultCode × Word × Grid × Grid × Word × Nat :=
  (s.fault, s.faultCode, s.result, s.cur, s.prev, s.fpsElapsed, s.lastMs)

theorem stopped_kept (i : Instr) (s : State) (before : List Action) (a : Action) (io : IoOracle) :
    keptByIoError (stopped i s before a io) = keptByIoError s := by
  cases i <;> rfl

/-- No event of a successful primitive is a failure. -/
theorem failure_of_mem_eventsOf {i : Instr} {s : State} {e : Event} (he : e ∈ eventsOf i s) : e.failure = false := by
  obtain ⟨a, -, rfl⟩ := List.mem_map.mp he
  exact event_failure a

/-- Settles O19, along the ends of an operation: a fault before the first primitive, a run to the end, a failed write. -/
theorem ioErrorStopsAtTheFailingWrite : Obligations.IoErrorStopsAtTheFailingWrite := by
  intro i s t u hs ht hu
  have hu : exec i (withIo { draws := [], beyond := true } s) = .next u := hu
  have hio : IoAllOk (withIo { draws := [], beyond := true } s) := ⟨nofun, rfl⟩
  rcases exec_cases ht with ⟨hf, -⟩ | ⟨hf, ha, rfl⟩ | ⟨hf, ha, c, hc, rfl⟩ | ⟨hf, ha, hc, io, rfl⟩ |
    ⟨hf, ha, hc, before, a, after, io, hacts, hdraws, rfl⟩
  case inl => exact absurd (hs.symm.trans hf) nofun
  case inr.inl =>
    cases hu.symm.trans (exec_unwritten hf ha)
    exact ⟨nofun, fun _ => ⟨rfl, by simp [raiseFault]⟩⟩
  case inr.inr.inl =>
    cases hu.symm.trans (exec_faulting ⟨hf, ha⟩ ((faultOf_withIo i _ s).trans hc))
    exact ⟨nofun, fun _ => ⟨rfl, by simp [raiseFault]⟩⟩
  case inr.inr.inr.inl =>
    refine ⟨fun he => absurd ((concluded_err i _ io).symm.trans he) nofun, fun _ => ⟨?_, fun e he => ?_⟩⟩
    · exact (concluded_trace i s.clearErr io).trans (exec_withIo_trace ⟨hf, ha⟩ hc hio hu).symm
    · rw [concluded_trace, clearErr_trace, List.drop_left] at he
      exact failure_of_mem_eventsOf he
  case inr.inr.inr.inr =>
    obtain ⟨hfailed, hfailure⟩ := failEvent_eq a hdraws
    have hkept := stopped_kept i s.clearErr before a io
    simp only [keptByIoError, Prod.mk.injEq] at hkept
    obtain ⟨hfault, hcode, hresult, hcur, hprev, hfps, hlast⟩ := hkept
    refine ⟨fun _ => ⟨before.map Action.event, a.event, after.map Action.event, ?_, ?_, hfailed ▸ hfailure,
      hfault.trans hf, hcode, hresult, hcur, hprev, hfps, hlast⟩, nofun⟩
    · rw [exec_withIo_trace ⟨hf, ha⟩ hc hio hu, eventsOf, hacts]
      simp
    · rw [← hfailed]
      exact stopped_trace i s.clearErr before a io

/-! ### Operations that only send -/

/-- An operation that writes nothing but its primitives, with every write ok, appends its events; where these leave the
reset line as it was, it changes nothing else but ERR, the mode line and the oracle. -/
theorem exec_sends {i : Instr} {s : State} {es : List Event} {dc : Level} (ha : Accepted i s)
    (hc : faultOf i s = none) (hio : IoAllOk s) (hfirst : ∀ u, firstWrite i u = u) (hlast : ∀ u v, lastWrite i u v = v)
    (hevents : eventsOf i s = es) (hdc : es.foldl (levelAfter .dc) s.dcLevel = dc)
    (hrst : es.foldl (levelAfter .rst) s.rstLevel = s.rstLevel) :
    ∃ t, exec i s = .next t ∧ t.trace = s.trace ++ es ∧ t.dcLevel = dc ∧
      t = { s with err := .ok, trace := t.trace, dcLevel := t.dcLevel, io := t.io } := by
  obtain ⟨io, hexec⟩ := exec_allOk ha hc hio
  rw [concluded, hlast, hfirst, eventsOf_clearErr, hevents] at hexec
  exact ⟨s.clearErr.ran es io, hexec, rfl, hdc, ran_eq_of_rstLevel io hrst⟩

/-! ### SEND_CMD (R122, R123) -/

theorem eventsOf_sendCmd (cb : Byte) (s : State) :
    eventsOf (.sendCmd cb) s =
      commandEvents s.cfg cb ((List.range s.arg1.value.toNat).map (payloadByte s.payload)) := by
  rw [← payloadBytes_eq_map, ← sendCommand_events]
  rfl

/-- Settles O34. -/
theorem sendCmdFramesTheCommand : Obligations.SendCmdFramesTheCommand := fun cb s ha hio =>
  exec_sends ha rfl hio (fun _ => rfl) (fun _ _ => rfl) (eventsOf_sendCmd cb s) (dcLevel_commandEvents ..)
    (rstLevel_commandEvents ..)

/-! ### SEND_DATA (R124 to R126) -/

theorem eventsOf_sendData (s : State) :
    eventsOf .sendData s = dataEvents s.cfg ((List.range s.arg1.value.toNat).map (payloadByte s.payload)) := by
  rw [← payloadBytes_eq_map, ← sendDataFramed_events]
  rfl

/-- There is a slice wherever there is a byte. -/
theorem slices_eq_nil_iff {m : Nat} (hm : 0 < m) (bytes : List Byte) : slices m bytes = [] ↔ bytes = [] := by
  constructor
  · intro h
    rw [← slices_flatten m hm bytes, h, List.flatten_nil]
  · rintro rfl
    exact slices_nil m

/-- The last slice holds what the full ones before it leave. -/
theorem length_getLast_slices {m : Nat} (hm : 0 < m) (bytes : List Byte) :
    ∀ c, (slices m bytes).getLast? = some c → c.length = bytes.length - m * ((slices m bytes).length - 1) := by
  refine slices_induction (P := fun bytes ws => ∀ c, ws.getLast? = some c → c.length = bytes.length - m * (ws.length - 1))
    m hm nofun ?_ bytes
  intro bytes _ ih c hc
  by_cases hrest : bytes.drop m = []
  · have hle : bytes.length ≤ m := List.drop_eq_nil_iff.mp hrest
    simp only [hrest, slices_nil, List.getLast?_singleton, Option.some.injEq] at hc
    subst hc
    simpa [hrest] using hle
  · obtain ⟨w, ws, hws⟩ := List.exists_cons_of_ne_nil (mt (slices_eq_nil_iff hm (bytes.drop m)).mp hrest)
    have hlast := ih c (by rwa [hws, List.getLast?_cons_cons, ← hws] at hc)
    rw [hlast, hws]
    simp only [List.length_drop, List.length_cons, Nat.add_sub_cancel, Nat.mul_add, Nat.mul_one]
    omega

/-- Settles O35: the chunks are the greedy slices of R121. -/
theorem sendDataChunksThePayload : Obligations.SendDataChunksThePayload := by
  intro s ha hio
  have hm : 0 < (s.cfg.maxChunk : Nat) := s.cfg.maxChunk.pos
  obtain ⟨t, hexec, htrace, hdc, hframe⟩ := exec_sends ha rfl hio (fun _ => rfl) (fun _ _ => rfl) (eventsOf_sendData s)
    (dcLevel_dataEvents ..) (rstLevel_dataEvents ..)
  generalize hbytes : (List.range s.arg1.value.toNat).map (payloadByte s.payload) = bytes at htrace ⊢
  have hlen : bytes.length = s.arg1.value.toNat := by simp [← hbytes]
  rw [← hlen]
  refine ⟨t, slices s.cfg.maxChunk bytes, hexec, htrace, slices_flatten _ hm bytes, length_slices _ hm bytes,
    fun k c hk hc => ?_, fun c hc => ⟨length_getLast_slices hm bytes c hc, ?_⟩, hdc, hframe⟩
  · obtain ⟨hlt, rfl⟩ := List.getElem?_eq_some_iff.mp hc
    exact length_getElem_slices _ hm bytes k hk
  · exact (length_of_mem_slices _ hm bytes c (List.mem_of_getLast? hc)).1

/-! ### SEND_RAW_REGION (R127, R128) -/

/-- Inside the bounds: the inclusive ends of the rectangle, then the payload as it is. -/
theorem eventsOf_sendRawRegion {s : State} (hbounds : boundsAllow .sendRawRegion s) :
    eventsOf .sendRawRegion s =
      windowEvents s.cfg (s.arg1.value.toNat % 65536) (s.arg1.value.toNat % 65536 + s.arg2.value.toNat % 65536 - 1)
          (s.arg1.value.toNat / 65536 + 20) (s.arg1.value.toNat / 65536 + s.arg2.value.toNat / 65536 + 19) ++
        dataEvents s.cfg ((List.range (2 * (s.arg2.value.toNat % 65536) * (s.arg2.value.toNat / 65536))).map
          (payloadByte s.payload)) := by
  obtain ⟨hw, hh, hright, hbottom⟩ := hbounds
  simp only [eventsOf, actionsOf, rawRegionActions, layoutX, layoutY, layoutW, layoutH, loHalf_toNat, hiHalf_toNat,
    List.map_append]
  rw [emitWindow_events s.cfg _ _ _ _ (by omega) hright (by omega) hbottom, sendDataFramed_events, payloadBytes_eq_map]

/-- Settles O36. -/
theorem sendRawRegionBypassesTheBuffer : Obligations.SendRawRegionBypassesTheBuffer := by
  intro s ha hready hbounds hio
  have hstate : stateAllows .sendRawRegion s.proto = true := by rw [hready]; rfl
  refine exec_sends ha (faultOf_eq_none hstate hbounds) hio (fun _ => rfl) (fun _ _ => rfl)
    (eventsOf_sendRawRegion hbounds) ?_ ?_
  · rw [List.foldl_append, dcLevel_dataEvents]
  · rw [List.foldl_append, rstLevel_windowEvents, rstLevel_dataEvents]

end Sys2Proof.Proofs
end

section
/-! PROOFS. The statements of 45_protocol.md: RESET (R133, R134), INIT (R136, R138), and FLUSH with its copy of cur, its
sample of the time and what a failure leaves (R141, R143 to R148). -/

namespace Sys2Proof.Proofs

open Machine Laws

/-! ### RESET (R133, R134) -/

theorem eventsOf_reset_wired {s : State} (hpin : s.cfg.hasResetPin = true) :
    eventsOf .reset s = [.pin .rst true, .delay s.cfg.tRst1, .pin .rst false, .delay s.cfg.tRst2, .pin .rst true,
      .delay s.cfg.tRst3] := by
  rw [eventsOf, actionsOf, resetActions, if_pos hpin]
  rfl

theorem eventsOf_reset_unwired {s : State} (hpin : s.cfg.hasResetPin = false) : eventsOf .reset s = [] := by
  rw [eventsOf, actionsOf, resetActions, if_neg (Bool.not_eq_true _ ▸ hpin), List.map_nil]

/-- RESET never drives the mode line. -/
theorem dcLevel_eventsOf_reset (s : State) (l : Level) : (eventsOf .reset s).foldl (levelAfter .dc) l = l := by
  cases hpin : s.cfg.hasResetPin with
  | true => rw [eventsOf_reset_wired hpin]; rfl
  | false => rw [eventsOf_reset_unwired hpin]; rfl

/-- Settles O38. -/
theorem resetDrivesTheResetLine : Obligations.ResetDrivesTheResetLine := by
  intro s ha hio
  obtain ⟨io, hexec⟩ := exec_allOk ha rfl hio
  have htrace : (concluded .reset s.clearErr io).trace = s.trace ++ eventsOf .reset s := concluded_trace ..
  have hrst : (concluded .reset s.clearErr io).rstLevel = (eventsOf .reset s).foldl (levelAfter .rst) s.rstLevel := rfl
  refine ⟨_, hexec, rfl, fun hpin => ?_, fun hpin => ?_, ?_⟩
  · rw [htrace, hrst, eventsOf_reset_wired hpin]
    exact ⟨rfl, rfl⟩
  · rw [htrace, hrst, eventsOf_reset_unwired hpin, List.append_nil]
    exact ⟨rfl, rfl⟩
  · have hdc : (concluded .reset s.clearErr io).dcLevel = s.dcLevel := dcLevel_eventsOf_reset s s.dcLevel
    calc concluded .reset s.clearErr io
      _ = { concluded .reset s.clearErr io with dcLevel := s.dcLevel } := by rw [← hdc]
      _ = _ := rfl

/-! ### INIT (R136) -/

/-- One entry of INIT_SEQ as events: its command, then its delay if there is one. -/
def initEntryEvents (p : Params) (e : InitEntry) : List Event :=
  commandEvents p e.cmd e.params ++ if 0 < e.delayMs then [.delay e.delayMs] else []

theorem initEntryActions_events (p : Params) (e : InitEntry) :
    (initEntryActions p e).map Action.event = initEntryEvents p e := by
  rw [initEntryActions, initEntryEvents, List.map_append, sendCommand_events]
  congr 1
  split <;> rfl

theorem eventsOf_init (s : State) : eventsOf .init s = s.cfg.initSeq.flatMap (initEntryEvents s.cfg) := by
  simp only [eventsOf, actionsOf, initActions, List.map_flatMap, initEntryActions_events]

/-- A delay moves no line: an entry leaves the levels its command leaves. -/
theorem level_initEntryEvents (pin : Pin) (p : Params) (e : InitEntry) (l : Level) :
    (initEntryEvents p e).foldl (levelAfter pin) l = (commandEvents p e.cmd e.params).foldl (levelAfter pin) l := by
  rw [initEntryEvents, List.foldl_append]
  split <;> rfl

theorem rstLevel_initSequence (p : Params) (seq : List InitEntry) (l : Level) :
    (seq.flatMap (initEntryEvents p)).foldl (levelAfter .rst) l = l := by
  induction seq with
  | nil => rfl
  | cons e seq ih => rw [List.flatMap_cons, List.foldl_append, level_initEntryEvents, rstLevel_commandEvents, ih]

/-- From the first entry on the mode line rests at the data level. -/
theorem dcLevel_initSequence (p : Params) {seq : List InitEntry} (hseq : seq ≠ []) (l : Level) :
    (seq.flatMap (initEntryEvents p)).foldl (levelAfter .dc) l = Level.ofBool (!p.dcCmdLevel) := by
  induction seq generalizing l with
  | nil => exact absurd rfl hseq
  | cons e seq ih =>
    rw [List.flatMap_cons, List.foldl_append, level_initEntryEvents, dcLevel_commandEvents]
    cases seq with
    | nil => rfl
    | cons e' seq => exact ih (List.cons_ne_nil e' seq) _

/-- Settles O39. -/
theorem initSendsTheSequenceAndBecomesReady : Obligations.InitSendsTheSequenceAndBecomesReady := by
  intro s ha hresetting hio
  have hstate : stateAllows .init s.proto = true := by rw [hresetting]; rfl
  obtain ⟨io, hexec⟩ := exec_allOk ha (faultOf_eq_none hstate trivial) hio
  rw [concluded, eventsOf_clearErr, eventsOf_init] at hexec
  refine ⟨_, hexec, rfl, fun hseq => dcLevel_initSequence s.cfg hseq s.dcLevel, fun hseq => ?_, ?_⟩
  · show (s.cfg.initSeq.flatMap (initEntryEvents s.cfg)).foldl (levelAfter .dc) s.dcLevel = s.dcLevel
    rw [hseq]
    rfl
  · rw [ran_eq_of_rstLevel io (rstLevel_initSequence ..)]
    rfl

/-! ### The ends of an operation, told apart by ERR (60_exceptions.md R152, R157) -/

/-- An I/O error is a failed write. -/
theorem exec_stopped_of_err {i : Instr} {s t : State} (hf : s.fault = false) (h : exec i s = .next t)
    (herr : t.err = .ioError) : ∃ before a io, t = stopped i s.clearErr before a io := by
  rcases exec_cases h with ⟨hhalt, -⟩ | ⟨-, -, rfl⟩ | ⟨-, -, c, -, rfl⟩ | ⟨-, -, -, io, rfl⟩ |
    ⟨-, -, -, before, a, after, io, -, -, rfl⟩
  · exact absurd (hf.symm.trans hhalt) nofun
  · cases herr
  · cases herr
  · exact absurd ((concluded_err i _ io).symm.trans herr) nofun
  · exact ⟨before, a, io, rfl⟩

/-- An accepted operation without a cause of a fault that ends in ERR = 0 ran to its end. -/
theorem exec_concluded_of_err {i : Instr} {s t : State} (ha : Accepted i s) (hc : faultOf i s = none)
    (h : exec i s = .next t) (hok : t.err = .ok) : ∃ io, t = concluded i s.clearErr io := by
  obtain ⟨hf, hargs⟩ := ha
  rcases exec_cases h with ⟨hhalt, -⟩ | ⟨-, hunwritten, -⟩ | ⟨-, -, c, hraise, -⟩ | ⟨-, -, -, io, rfl⟩ |
    ⟨-, -, -, before, a, after, io, -, -, rfl⟩
  · exact absurd (hf.symm.trans hhalt) nofun
  · exact absurd hargs hunwritten
  · exact absurd (hc.symm.trans hraise) nofun
  · exact ⟨io, rfl⟩
  · cases hok

/-! ### CONFIGURING (R138) -/

/-- An INIT that ended in an I/O error left no fault behind, so the next INIT reports its own. -/
theorem exec_init_from_configuring {s : State} (hf : s.fault = false) (hcode : s.faultCode = none)
    (hs : s.proto = .configuring) :
    ∃ u, exec .init s = .next u ∧ u.fault = true ∧ u.faultCode = some .state := by
  have hc : faultOf .init s = some .state := by simp [faultOf, stateAllows, hs]
  exact ⟨_, exec_faulting ⟨hf, argsWritten_of_argsRead_nil rfl⟩ hc, rfl, by simp [raiseFault, hcode]⟩

/-- An operation that leaves CONFIGURING found it, or is an INIT whose write failed. -/
theorem exec_leaves_configuring {i : Instr} {s t : State} (h : exec i s = .next t) (ht : t.proto = .configuring) :
    s.proto = .configuring ∨ (i = .init ∧ t.err = .ioError) := by
  by_cases hf : s.fault = true
  · cases (exec_halted i hf).symm.trans h
    exact .inl ht
  have hf : s.fault = false := Bool.eq_false_iff.mpr hf
  by_cases hreset : i = .reset
  · subst hreset
    exact absurd ((exec_reset_proto hf h).symm.trans ht) nofun
  by_cases hinit : i = .init
  · subst hinit
    by_cases hs : s.proto = .resetting
    · rcases exec_init_proto hf hs h with ⟨-, hready⟩ | ⟨herr, -⟩
      · exact absurd (hready.symm.trans ht) nofun
      · exact .inr ⟨rfl, herr⟩
    · exact .inl ((exec_init_refused hs h).symm.trans ht)
  · exact .inl ((exec_proto h hreset hinit).symm.trans ht)

/-- Settles O40. -/
theorem configuringOnlyAfterAFailedInit : Obligations.ConfiguringOnlyAfterAFailedInit := by
  refine ⟨fun s t hf hcode hs h herr => ?_, fun _ _ _ => exec_leaves_configuring⟩
  have ht : t.proto = .configuring := by
    rcases exec_init_proto hf hs h with ⟨hok, -⟩ | ⟨-, hconfiguring⟩
    · exact absurd (herr.symm.trans hok) nofun
    · exact hconfiguring
  obtain ⟨before, a, io, rfl⟩ := exec_stopped_of_err hf h herr
  exact ⟨ht, exec_init_from_configuring hf hcode ht⟩

/-! ### The region FLUSH sends (R141) -/

/-- The scan is Empty exactly on a clean buffer (42_scanner.md R106). -/
theorem scan_eq_none_iff (cur prev : Grid) : scan cur prev = none ↔ ∀ y, ¬ RowDirty cur prev y := by
  simp only [← rowDirty_eq_true_iff_RowDirty]
  rcases scan_cases cur prev with ⟨hscan, hclean⟩ | ⟨top, bottom, hscan, -, htop, -⟩
  · exact iff_of_true hscan fun y => by simp [hclean y]
  · exact iff_of_false (by simp [hscan]) fun hclean => hclean top htop

/-- The scan answers the two dirty rows between which every dirty row lies. -/
theorem scan_eq_some_iff (cur prev : Grid) (top bottom : Fin HEIGHT) :
    scan cur prev = some (top, bottom) ↔
      RowDirty cur prev top ∧ RowDirty cur prev bottom ∧ ∀ y, RowDirty cur prev y → top ≤ y ∧ y ≤ bottom := by
  simp only [← rowDirty_eq_true_iff_RowDirty]
  rcases scan_cases cur prev with ⟨hscan, hclean⟩ | ⟨top', bottom', hscan, -, htop', hbottom', hwithin'⟩
  · exact iff_of_false (by simp [hscan]) fun ⟨htop, _⟩ => by simp [hclean top] at htop
  · rw [hscan]
    constructor
    · intro h
      cases h
      exact ⟨htop', hbottom', hwithin'⟩
    · rintro ⟨htop, hbottom, hwithin⟩
      have htop_eq : top' = top := le_antisymm (hwithin' top htop).1 (hwithin top' htop').1
      have hbottom_eq : bottom' = bottom := le_antisymm (hwithin bottom' hbottom').2 (hwithin' bottom hbottom).2
      rw [htop_eq, hbottom_eq]

/-- Every row lies between the first and the last. -/
theorem scan_eq_whole_iff (cur prev : Grid) :
    scan cur prev = some (0, Fin.last 279) ↔ RowDirty cur prev 0 ∧ RowDirty cur prev (Fin.last 279) := by
  rw [scan_eq_some_iff]
  exact ⟨fun ⟨htop, hbottom, _⟩ => ⟨htop, hbottom⟩,
    fun ⟨htop, hbottom⟩ => ⟨htop, hbottom, fun y _ => ⟨Fin.zero_le y, Fin.le_last y⟩⟩⟩

/-- Everything the region of a FLUSH can be: Empty on a clean buffer, or rows outside which every row is clean, and all
of them when forced. -/
theorem flushRegion_cases (f : Bool) (s : State) :
    (f = false ∧ flushRegion f s = none ∧ ∀ y, ¬ RowDirty s.cur s.prev y) ∨
      ∃ top bottom, flushRegion f s = some (top, bottom) ∧ top ≤ bottom ∧
        (f = false → ∀ y, RowDirty s.cur s.prev y → top ≤ y ∧ y ≤ bottom) ∧
        (f = true → top = 0 ∧ bottom = Fin.last 279) := by
  cases f with
  | true => exact .inr ⟨0, Fin.last 279, rfl, Fin.zero_le _, nofun, fun _ => ⟨rfl, rfl⟩⟩
  | false =>
    cases hscan : scan s.cur s.prev with
    | none => exact .inl ⟨rfl, hscan, (scan_eq_none_iff ..).mp hscan⟩
    | some rows =>
      obtain ⟨htop, -, hwithin⟩ := (scan_eq_some_iff ..).mp hscan
      exact .inr ⟨rows.1, rows.2, hscan, (hwithin rows.1 htop).2, fun _ => hwithin, nofun⟩

theorem eventsOf_flush_empty {f : Bool} {s : State} (hregion : flushRegion f s = none) :
    eventsOf (.flush f) s = [] := by
  rw [eventsOf, actionsOf, hregion, flushActions, List.map_nil]

/-- The window of the rows (43_window.md R118), then their bytes. -/
theorem eventsOf_flush_rows {f : Bool} {s : State} {top bottom : Fin HEIGHT}
    (hregion : flushRegion f s = some (top, bottom)) (hle : top ≤ bottom) :
    eventsOf (.flush f) s =
      windowEvents s.cfg 0 239 (top + 20) (bottom + 20) ++ dataEvents s.cfg (rawBytes s.cur top bottom) := by
  have hrows : top.val < bottom.val + 1 := Nat.lt_succ_of_le hle
  have hlast : bottom.val + 1 ≤ 280 := bottom.isLt
  rw [eventsOf, actionsOf, hregion, flushActions, List.map_append, sendDataFramed_events,
    emitWindow_events s.cfg 0 top 240 (bottom + 1) (by decide) (by decide) hrows hlast]

/-! ### FLUSH run to its end (R143, R144) -/

/-- FLUSH reads no operand register. -/
theorem accepted_flush {s : State} (f : Bool) (hf : s.fault = false) : Accepted (.flush f) s :=
  ⟨hf, argsWritten_of_argsRead_nil rfl⟩

theorem faultOf_flush {s : State} (f : Bool) (hready : s.proto = .ready) : faultOf (.flush f) s = none :=
  faultOf_eq_none (by rw [hready]; rfl) trivial

/-- What a FLUSH that succeeds leaves when it sent the events `es` and `sent` pixel bytes: cur copied into prev and one
draw of the time port taken. -/
def flushed (sent : Nat) (es : List Event) (io : IoOracle) (s : State) : State :=
  { s with
    err := .ok, result := BitVec.ofNat 32 sent, prev := s.cur, fpsElapsed := BitVec.ofNat 32 (elapsedSample s),
    lastMs := s.now, clock := { s.clock with draws := s.clock.draws.tail }, trace := s.trace ++ es,
    dcLevel := es.foldl (levelAfter .dc) s.dcLevel, io := io }

theorem concluded_flush {f : Bool} {s : State} {es : List Event} (io : IoOracle) (hevents : eventsOf (.flush f) s = es)
    (hrst : es.foldl (levelAfter .rst) s.rstLevel = s.rstLevel) :
    concluded (.flush f) s.clearErr io = flushed (flushSent (flushRegion f s)) es io s := by
  have hran := ran_eq_of_rstLevel (s := s.clearErr) io hrst
  rw [concluded, eventsOf_clearErr, hevents, firstWrite, hran]
  rfl

theorem concluded_flush_empty {f : Bool} {s : State} (io : IoOracle) (hregion : flushRegion f s = none) :
    concluded (.flush f) s.clearErr io = flushed 0 [] io s := by
  rw [concluded_flush io (eventsOf_flush_empty hregion) rfl, hregion, flushSent]

theorem concluded_flush_rows {f : Bool} {s : State} {top bottom : Fin HEIGHT} (io : IoOracle)
    (hregion : flushRegion f s = some (top, bottom)) (hle : top ≤ bottom) :
    concluded (.flush f) s.clearErr io =
      flushed ((bottom - top + 1) * 480)
        (windowEvents s.cfg 0 239 (top + 20) (bottom + 20) ++ dataEvents s.cfg (rawBytes s.cur top bottom)) io s := by
  have hrst : (windowEvents s.cfg 0 239 (top + 20) (bottom + 20) ++
      dataEvents s.cfg (rawBytes s.cur top bottom)).foldl (levelAfter .rst) s.rstLevel = s.rstLevel := by
    rw [List.foldl_append, rstLevel_windowEvents, rstLevel_dataEvents]
  rw [concluded_flush io (eventsOf_flush_rows hregion hle) hrst, hregion, flushSent]

/-- A FLUSH of some rows with every write ok. -/
theorem exec_flush_rows {f : Bool} {s : State} {top bottom : Fin HEIGHT} (ha : Accepted (.flush f) s)
    (hready : s.proto = .ready) (hio : IoAllOk s) (hregion : flushRegion f s = some (top, bottom))
    (hle : top ≤ bottom) :
    ∃ t, exec (.flush f) s = .next t ∧
      t.trace = s.trace ++ (windowEvents s.cfg 0 239 (top + 20) (bottom + 20) ++
        dataEvents s.cfg (rawBytes s.cur top bottom)) ∧
      t.fpsElapsed = BitVec.ofNat 32 (elapsedSample s) ∧ t.dcLevel = Level.ofBool (!s.cfg.dcCmdLevel) ∧
      t = { s with
        err := .ok, result := BitVec.ofNat 32 ((bottom - top + 1) * 480), prev := s.cur,
        fpsElapsed := t.fpsElapsed, lastMs := s.now, clock := { s.clock with draws := s.clock.draws.tail },
        trace := t.trace, dcLevel := t.dcLevel, io := t.io } := by
  obtain ⟨io, hexec⟩ := exec_allOk ha (faultOf_flush f hready) hio
  rw [concluded_flush_rows io hregion hle] at hexec
  refine ⟨_, hexec, rfl, rfl, ?_, rfl⟩
  rw [flushed, List.foldl_append, dcLevel_dataEvents]

/-- Settles O41: the forced region is the whole buffer. -/
theorem forcedFlushSendsTheWholeFrame : Obligations.ForcedFlushSendsTheWholeFrame := by
  intro s ha hready hio
  have hregion : flushRegion true s = some (0, Fin.last 279) := rfl
  obtain ⟨t, hexec, htrace, hfps, hdc, hframe⟩ := exec_flush_rows ha hready hio hregion (Fin.zero_le _)
  exact ⟨t, hexec, htrace, hfps, hdc, hframe⟩

/-- Settles O42: the two rows are what the scan finds. -/
theorem partialFlushSendsTheDirtyRows : Obligations.PartialFlushSendsTheDirtyRows := by
  intro s top bottom ha hready hio htop hbottom hwithin
  have hscan : scan s.cur s.prev = some (top, bottom) := (scan_eq_some_iff ..).mpr ⟨htop, hbottom, hwithin⟩
  exact exec_flush_rows ha hready hio hscan (hwithin top htop).2

/-- Settles O43. Without a primitive there is no draw of the oracle, so no premise on it is needed. -/
theorem emptyFlushStillCopies : Obligations.EmptyFlushStillCopies := by
  intro s ha hready hclean
  have hregion : flushRegion false s.clearErr = none := (scan_eq_none_iff ..).mpr hclean
  rw [exec_runs ha (faultOf_flush false hready), actionsOf, hregion, flushActions, perform, Io.conclude, lastWrite,
    hregion]
  rfl

/-! ### A FLUSH that fails (R145), and the draws of the time port (R144) -/

/-- Settles O44. -/
theorem failedFlushKeepsTheSnapshot : Obligations.FailedFlushKeepsTheSnapshot := by
  intro f s t hf h herr
  have hproto : t.proto = s.proto := exec_proto h nofun nofun
  obtain ⟨before, a, io, rfl⟩ := exec_stopped_of_err hf h herr
  exact ⟨rfl, rfl, rfl, rfl, rfl, hproto, rfl⟩

/-- The time sample, LAST_MS and the draws still to come. -/
def timeSide (s : State) : Word × Nat × TimePort := (s.fpsElapsed, s.lastMs, s.clock)

theorem lastWrite_timeSide {i : Instr} (hi : ∀ f, i ≠ .flush f) (u v : State) :
    timeSide (lastWrite i u v) = timeSide v := by
  cases i with
  | flush f => exact absurd rfl (hi f)
  | _ => rfl

theorem exec_timeSide {i : Instr} {s t : State} (h : exec i s = .next t) (hi : ∀ f, i ≠ .flush f) :
    timeSide t = timeSide s :=
  exec_keeps_of_setProto timeSide h (lastWrite_timeSide hi) (fun _ _ => rfl) (fun _ _ _ _ _ _ _ _ => rfl)

/-- A FLUSH that ends in a fault or an I/O error never reaches its last write. -/
theorem exec_flush_timeSide {f : Bool} {s t : State} (h : exec (.flush f) s = .next t)
    (hend : t.fault = true ∨ t.err = .ioError) : timeSide t = timeSide s := by
  rcases exec_cases h with ⟨-, rfl⟩ | ⟨-, -, rfl⟩ | ⟨-, -, c, -, rfl⟩ | ⟨hf, -, -, io, rfl⟩ |
    ⟨-, -, -, before, a, after, io, -, -, rfl⟩
  · rfl
  · rfl
  · rfl
  · rcases hend with hfault | herr
    · exact absurd (hf.symm.trans hfault) nofun
    · cases herr
  · rfl

/-- The sample fits its register. -/
theorem elapsedSample_toNat (s : State) : (BitVec.ofNat 32 (elapsedSample s)).toNat = elapsedSample s := by
  rw [BitVec.toNat_ofNat, elapsedSample]
  omega

/-- Settles O45. -/
theorem onlyFlushSamplesTheTime : Obligations.OnlyFlushSamplesTheTime := by
  refine ⟨fun f s t hf hready h hok => ?_, fun f s t h hend => ?_, fun i s t hi h => ?_⟩
  · obtain ⟨io, rfl⟩ := exec_concluded_of_err (accepted_flush f hf) (faultOf_flush f hready) h hok
    have hsample : (concluded (.flush f) s.clearErr io).fpsElapsed.toNat = elapsedSample s := elapsedSample_toNat s
    refine ⟨hsample, ?_, rfl, rfl⟩
    rw [hsample, elapsedSample]
    omega
  · simpa only [timeSide, Prod.mk.injEq] using exec_flush_timeSide h hend
  · simpa only [timeSide, Prod.mk.injEq] using exec_timeSide h hi

/-! ### The second FLUSH (R146) -/

/-- Every cell is almost equal to itself (40_color.md R91). -/
theorem not_RowDirty_self (g : Grid) (y : Fin HEIGHT) : ¬ RowDirty g g y := fun ⟨_, hx⟩ =>
  absurd ((almostEq_refl _ 2).symm.trans hx) nofun

/-- Once the grids agree, an operation that does not draw keeps them so: prev can only become cur. -/
theorem exec_keeps_prev_eq_cur {i : Instr} {s t : State} (h : exec i s = .next t) (hi : drawsCur i = false)
    (hs : s.prev = s.cur) : t.prev = t.cur := by
  rw [exec_cur h hi]
  by_cases hflush : ∃ f, i = .flush f
  · obtain ⟨f, rfl⟩ := hflush
    rcases exec_flush_prev h with hprev | hprev
    · exact hprev.trans hs
    · exact hprev
  · exact (exec_prev h (not_exists.mp hflush)).trans hs

theorem runOps_keeps_prev_eq_cur {ops : List Instr} {s u : State} (h : runOps ops s = some u)
    (hops : ∀ i ∈ ops, drawsCur i = false) (hs : s.prev = s.cur) : u.prev = u.cur := by
  induction ops generalizing s with
  | nil =>
    cases h
    exact hs
  | cons i ops ih =>
    obtain ⟨t, ht⟩ := exec_next i s
    obtain ⟨hi, hrest⟩ := List.forall_mem_cons.mp hops
    rw [runOps, ht] at h
    exact ih h hrest (exec_keeps_prev_eq_cur ht hi hs)

/-- Settles O46: the copy leaves a clean buffer, and nothing that follows draws. -/
theorem secondFlushSendsNothing : Obligations.SecondFlushSendsNothing := by
  intro f s t u v ops hf hready h hok hops hrun huf huready hv
  obtain ⟨io, rfl⟩ := exec_concluded_of_err (accepted_flush f hf) (faultOf_flush f hready) h hok
  have hagree : u.prev = u.cur := runOps_keeps_prev_eq_cur hrun hops rfl
  have hclean (y : Fin HEIGHT) : ¬ RowDirty u.cur u.prev y := hagree ▸ not_RowDirty_self u.cur y
  cases hv.symm.trans (emptyFlushStillCopies u (accepted_flush false huf) huready hclean)
  exact ⟨rfl, rfl, rfl⟩

/-! ### Forced and partial FLUSH (R147) -/

/-- FLUSH uses F for its region alone. -/
theorem exec_flush_congr {f f' : Bool} {s : State} (h : flushRegion f s = flushRegion f' s) :
    exec (.flush f) s = exec (.flush f') s := by
  have hrule : flushRule f s.clearErr = flushRule f' s.clearErr := by
    have hclear : flushRegion f s.clearErr = flushRegion f' s.clearErr := h
    rw [flushRule, flushRule, hclear]
  show Host.Outcome.next (accept [] (flushRule f) s) = .next (accept [] (flushRule f') s)
  rw [accept, accept, hrule]

/-- A row of one colour is dirty where some cell of prev is not almost equal to that colour. -/
theorem RowDirty_const_iff (c : PackedColor) (prev : Grid) (y : Fin HEIGHT) :
    RowDirty (Grid.const c) prev y ↔ ∃ x, almostEq c (prev.cell x y) 2 = false := by
  simp only [RowDirty, Grid.cell_const]

/-- FILL_RECT 0, 0, 240, 280 writes every cell. -/
theorem exec_fillRect_whole {s t : State} {c : PackedColor} (ha : Accepted .fillRect s) (h1 : s.arg1.value = 0)
    (h2 : s.arg2.value = 0x011800F0) (h3 : s.arg3.value.toNat % 65536 = c.toNat) (h : exec .fillRect s = .next t) :
    t.cur = Grid.const c := by
  obtain ⟨hfault, hargs⟩ := ha
  obtain ⟨-, -, hwritten⟩ := (argsWritten_fillRect_iff s).mp hargs
  have hclear : Accepted .clear s := ⟨hfault, (argsWritten_clear_iff s).mpr hwritten⟩
  have hcolor : layoutColor s.arg3.value = c := BitVec.eq_of_toNat_eq ((loHalf_toNat _).trans h3)
  rw [← exec_clear_eq_exec_fillRect ⟨hfault, hargs⟩ h1 h2, exec_silent hclear rfl rfl] at h
  cases h
  exact congrArg Grid.const hcolor

/-- Settles O47. -/
theorem fullAndPartialFlushAgree : Obligations.FullAndPartialFlushAgree := by
  refine ⟨fun s htop hbottom => ?_, fun s t hf hready h hok => ?_, fun s t c ha h1 h2 h3 h => ?_⟩
  · exact exec_flush_congr ((scan_eq_whole_iff s.cur s.prev).mpr ⟨htop, hbottom⟩)
  · obtain ⟨io, rfl⟩ := exec_concluded_of_err (accepted_flush true hf) (faultOf_flush true hready) h hok
    rfl
  · rw [scan_eq_whole_iff, exec_fillRect_whole ha h1 h2 h3 h, exec_prev h nofun, RowDirty_const_iff,
      RowDirty_const_iff]

/-! ### What a successful FLUSH leaves (R148) -/

/-- The bytes of a region fit RESULT: at most 134400. -/
theorem flushSent_toNat (top bottom : Fin HEIGHT) :
    (BitVec.ofNat 32 ((bottom - top + 1) * 480)).toNat = (bottom - top + 1) * 480 := by
  have hlast : bottom.val < 280 := bottom.isLt
  rw [BitVec.toNat_ofNat]
  omega

/-- Settles O48, along what the region can be. -/
theorem flushPostState : Obligations.FlushPostState := by
  intro f s t hf hready h hok
  obtain ⟨io, rfl⟩ := exec_concluded_of_err (accepted_flush f hf) (faultOf_flush f hready) h hok
  refine ⟨rfl, rfl, ?_⟩
  rcases flushRegion_cases f s with ⟨hpartial, hregion, hclean⟩ | ⟨top, bottom, hregion, hle, hwithin, hforced⟩
  · rw [concluded_flush_empty io hregion]
    exact .inl ⟨hpartial, rfl, List.append_nil s.trace, hclean⟩
  · rw [concluded_flush_rows io hregion hle]
    refine .inr ⟨top, bottom, hle, flushSent_toNat top bottom, rfl, fun hpartial y houtside hdirty => ?_, hforced⟩
    obtain ⟨habove, hbelow⟩ := hwithin hpartial y hdirty
    omega

end Sys2Proof.Proofs
end

section
/-! PROOFS. The statements of 60_exceptions.md: what a fault leaves (R154, R162), the order of its causes (R155, R158 to
R160), and the halted block (R156). -/

namespace Sys2Proof.Proofs

open Machine Laws

/-! ### What a fault raised by an operation leaves (R154) -/

theorem raiseFault_clearErr_eq (c : FaultCode) (s : State) :
    raiseFault c s.clearErr = { s with err := .ok, fault := true, faultCode := s.faultCode.or (some c) } :=
  raiseFault_eq c s.clearErr

theorem raiseFault_clearErr_reports (c : FaultCode) {s : State} (hc : s.faultCode = none) :
    (raiseFault c s.clearErr).fault = true ∧ (raiseFault c s.clearErr).faultCode = some c := by
  simp [hc]

/-- An accepted operation without a cause of a fault leaves FAULT and its code as they are, whether it runs to its end
or stops at a failed write. -/
theorem exec_keeps_fault {i : Instr} {s t : State} (ha : Accepted i s) (hc : faultOf i s = none)
    (h : exec i s = .next t) : t.fault = false ∧ t.faultCode = s.faultCode := by
  obtain ⟨hf, hargs⟩ := ha
  cases herr : t.err with
  | ok =>
    obtain ⟨io, rfl⟩ := exec_concluded_of_err ⟨hf, hargs⟩ hc h herr
    exact ⟨(concluded_fault i _ io).trans hf, concluded_faultCode i _ io⟩
  | ioError =>
    obtain ⟨before, a, io, rfl⟩ := exec_stopped_of_err hf h herr
    have hkept := stopped_kept i s.clearErr before a io
    simp only [keptByIoError, Prod.mk.injEq] at hkept
    obtain ⟨hfault, hcode, -⟩ := hkept
    exact ⟨hfault.trans hf, hcode⟩

/-- Settles O15, along the causes of a fault: an unwritten operand, the rule's own check, or none. -/
theorem faultingOperationHasNoOtherEffect : Obligations.FaultingOperationHasNoOtherEffect := by
  intro i s t h hf hfaulted
  by_cases ha : ArgsWritten i s
  · cases hc : faultOf i s with
    | some c =>
      cases h.symm.trans (exec_faulting ⟨hf, ha⟩ hc)
      exact ⟨c, raiseFault_clearErr_eq c s⟩
    | none =>
      obtain ⟨hgood, -⟩ := exec_keeps_fault ⟨hf, ha⟩ hc h
      exact absurd (hfaulted.symm.trans hgood) nofun
  · cases h.symm.trans (exec_unwritten hf ha)
    exact ⟨.unwrittenArg, raiseFault_clearErr_eq .unwrittenArg s⟩

/-! ### The order of the causes (R160) -/

theorem faultOf_eq_state {i : Instr} {s : State} (hstate : stateAllows i s.proto = false) :
    faultOf i s = some .state := if_pos hstate

theorem faultOf_eq_bounds {i : Instr} {s : State} (hstate : stateAllows i s.proto = true)
    (hbounds : ¬ boundsAllow i s) : faultOf i s = some .bounds := by
  have hno : boundsOk i s = false := Bool.eq_false_iff.mpr (mt (boundsOk_iff i s).mp hbounds)
  simp [faultOf, hstate, hno]

/-- Settles O16: the dispatch checks the operands (R155), then the rule the protocol state and the bounds. -/
theorem firstCauseInOrderIsReported : Obligations.FirstCauseInOrderIsReported := by
  intro i s hf hcode
  obtain ⟨t, h⟩ := exec_next i s
  refine ⟨t, h, fun ha => ?_, fun ha hstate => ?_, fun ha hstate hbounds => ?_, fun ha hstate hbounds => ?_⟩
  · cases h.symm.trans (exec_unwritten hf ha)
    exact raiseFault_clearErr_reports .unwrittenArg hcode
  · cases h.symm.trans (exec_faulting ⟨hf, ha⟩ (faultOf_eq_state hstate))
    exact raiseFault_clearErr_reports .state hcode
  · cases h.symm.trans (exec_faulting ⟨hf, ha⟩ (faultOf_eq_bounds hstate hbounds))
    exact raiseFault_clearErr_reports .bounds hcode
  · rw [← hcode]
    exact exec_keeps_fault ⟨hf, ha⟩ (faultOf_eq_none hstate hbounds) h

/-! ### The halted block (R156) -/

/-- A halted block ignores every command word, legal or not. -/
theorem runWord_halted {s : State} (w : Word) (hs : s.fault = true) : runWord w s = .next s := by
  cases hdecode : decode w with
  | ok i => rw [runWord_ok hdecode, exec_halted i hs]
  | error e => rw [runWord_illegal hdecode, if_pos hs]

theorem step_writeOp_halted {s : State} {w : Word} {rest : List HostEvent} (hs : s.fault = true)
    (h : s.host = .write 32 0x00 w :: rest) : step s = .next (served rest s) :=
  (step_write h rfl).trans (runWord_halted (s := served rest s) w hs)

/-- On a halted block a step is the host's part alone. -/
theorem step_halted_hostOnly {s t : State} (hs : s.fault = true) (h : step s = .next t) : HostOnly s t := by
  rcases step_cases h with ⟨-, rfl⟩ | ⟨_, _, rest, -, -, rfl⟩ | ⟨_, _, _, rest, i, -, -, -, -, hexec⟩ |
    ⟨_, _, _, rest, _, -, -, -, -, rfl⟩ | ⟨_, _, v, rest, k, -, -, -, rfl⟩ | ⟨_, _, _, rest, -, -, rfl⟩ |
    ⟨p, rest, -, rfl⟩ | ⟨p, rest, -, rfl⟩
  case inr.inr.inl =>
    cases hexec.symm.trans (exec_halted (s := served rest s) i hs)
    rfl
  case inr.inr.inr.inl =>
    rw [if_pos hs]
    rfl
  case inr.inr.inr.inr.inl => exact hostOnly_setArg (u := served rest s) rfl k v
  all_goals rfl

theorem arg_setArg_same (s : State) (k : ArgName) (v : Word) : (s.setArg k v).arg k = ⟨v, true⟩ := by
  cases k <;> rfl

/-- Settles O17: OP writes are ignored (`runWord_halted`), and no step does more than the host's part. -/
theorem haltedBlockIgnoresCommands : Obligations.HaltedBlockIgnoresCommands := by
  intro s hs
  refine ⟨fun _ _ => step_writeOp_halted hs, fun k v rest h => ?_, fun off rest h halign hle => ?_, fun t h => ?_⟩
  · exact ⟨_, step_writeArg h, arg_setArg_same _ k v⟩
  · exact ⟨_, _, step_read h (accessOk_iff.mpr ⟨rfl, halign, hle⟩), rfl⟩
  · rw [step_halted_hostOnly hs h]
    exact ⟨hs, rfl⟩

end Sys2Proof.Proofs
end

section
/-! PROOFS. The statement of 70_reset_and_hazards.md on operand initialisation (R186): the assembled line of an
operation writes every register the operation reads before it writes OP. -/

namespace Sys2Proof.Proofs

open Machine Laws

/-! ### The operand writes of a line, served (30_encoding.md R77) -/

/-- The host's write of one operand register. -/
def writeOperand (a : ArgName × Word) : HostEvent := .write 32 (argOffset a.1) a.2

/-- Host events that write exactly the registers an operation reads, in the order of `argsRead`, then its word to OP. -/
def OperandsThenOp (events : List HostEvent) : Prop :=
  ∃ (i : Instr) (ops : List (ArgName × Word)), ops.map Prod.fst = argsRead i ∧
    events = ops.map writeOperand ++ [writeOp i]

theorem served_arg (rest : List HostEvent) (s : State) (k : ArgName) : (served rest s).arg k = s.arg k := by
  cases k <;> rfl

/-- A write of one operand register sets its flag and clears none (10_state.md R18). -/
theorem written_setArg_iff (s : State) (k j : ArgName) (v : Word) :
    ((s.setArg k v).arg j).written = true ↔ j = k ∨ (s.arg j).written = true := by
  cases k <;> cases j <;> simp [State.arg]

/-- Operand writes raise no fault, and leave each register they name, and each written before, written. -/
theorem run_operandWrites {ops : List (ArgName × Word)} {s : State} {rest : List HostEvent}
    (hhost : s.host = ops.map writeOperand ++ rest) (n : Nat) :
    ∃ u : State, Host.Core.run core (ops.length + n) s = Host.Core.run core n u ∧ u.host = rest ∧
      u.fault = s.fault ∧ u.faultCode = s.faultCode ∧
      ∀ j, j ∈ ops.map Prod.fst ∨ (s.arg j).written = true → (u.arg j).written = true := by
  induction ops generalizing s with
  | nil => exact ⟨s, by simp, hhost, rfl, rfl, by simp⟩
  | cons a ops ih =>
    have hevents : s.host = .write 32 (argOffset a.1) a.2 :: (ops.map writeOperand ++ rest) := hhost
    obtain ⟨u, hrun, hqueue, hfault, hcode, hwritten⟩ :=
      ih (host_setArg_served (ops.map writeOperand ++ rest) s a.1 a.2)
    refine ⟨u, ?_, hqueue, by simpa [served] using hfault, by simpa [served] using hcode, fun j hj => hwritten j ?_⟩
    · rw [List.length_cons, Nat.add_right_comm, run_writeArg hevents, hrun]
    · rw [written_setArg_iff, served_arg]
      rw [List.map_cons, List.mem_cons] at hj
      tauto

/-- An operation whose operand registers are written just before its OP write never reports UNWRITTEN_ARG
(60_exceptions.md R155). -/
theorem run_operandsThenOp {events rest : List HostEvent} {s t : State} (hevents : OperandsThenOp events)
    (hf : s.fault = false) (hc : s.faultCode = none) (hhost : s.host = events ++ rest)
    (hrun : Host.Core.run core events.length s = .next t) : t.faultCode ≠ some .unwrittenArg := by
  obtain ⟨i, ops, hnames, rfl⟩ := hevents
  rw [List.append_assoc] at hhost
  obtain ⟨u, hwrites, hqueue, hfault, hcode, hwritten⟩ := run_operandWrites hhost 1
  have hargs : ArgsWritten i (served rest u) := fun k hk =>
    (congrArg ArgReg.written (served_arg rest u k)).trans (hwritten k (.inl (hnames ▸ hk)))
  have hgood : (served rest u).fault = false := hfault.trans hf
  have hnone : (served rest u).faultCode = none := hcode.trans hc
  obtain ⟨t', hexec⟩ := exec_next i (served rest u)
  have hop : Host.Core.run core 1 u = .next t' := run_next (k := 0) ((step_writeOp hqueue).trans hexec)
  rw [List.length_append, List.length_map, List.length_singleton, hwrites, hop] at hrun
  cases hrun
  exact fun hreport => (exec_faultCode_unwrittenArg_iff hgood hnone hexec).mp hreport hargs

/-! ### What the assembler emits -/

theorem assembleFillRect_operandsThenOp (x y w h : BitVec 16) (c : PackedColor) :
    OperandsThenOp (assembleFillRect x y w h c) :=
  ⟨.fillRect, [(.arg1, packHalves x y), (.arg2, packHalves w h), (.arg3, c.setWidth 32)], rfl, rfl⟩

theorem assembleSendCmd_operandsThenOp (cb : Byte) (len : Word) : OperandsThenOp (assembleSendCmd cb len) :=
  ⟨.sendCmd cb, [(.arg1, len)], rfl, rfl⟩

/-- Every line but the raw READ and WRITE is an operation with its operand writes before it. -/
theorem assemble_operandsThenOp (l : AsmLine) (hread : ∀ off, l ≠ .readReg off)
    (hwrite : ∀ off v, l ≠ .writeReg off v) : OperandsThenOp (assemble l) := by
  cases l with
  | reset => exact ⟨.reset, [], rfl, rfl⟩
  | init => exact ⟨.init, [], rfl, rfl⟩
  | cvtPack r g b => exact ⟨.cvtPack, [(.arg1, rgbWord ⟨r, g, b⟩)], rfl, rfl⟩
  | cvtUnpack c => exact ⟨.cvtUnpack, [(.arg1, c.setWidth 32)], rfl, rfl⟩
  | almostEq a b t => exact ⟨.almostEq, [(.arg1, packHalves a b), (.arg2, t)], rfl, rfl⟩
  | fillRect x y w h c => exact assembleFillRect_operandsThenOp x y w h c
  | clear c => exact ⟨.clear, [(.arg3, c.setWidth 32)], rfl, rfl⟩
  | blit x y w h sx sy =>
    exact ⟨.blit, [(.arg1, packHalves x y), (.arg2, packHalves w h), (.arg3, packHalves sx sy)], rfl, rfl⟩
  | scan => exact ⟨.scan, [], rfl, rfl⟩
  | flush => exact ⟨.flush false, [], rfl, rfl⟩
  | flushFull => exact ⟨.flush true, [], rfl, rfl⟩
  | setWindow x0 y0 x1 y1 =>
    exact ⟨.setWindow, [(.arg1, packHalves x0 y0), (.arg2, packHalves x1 y1)], rfl, rfl⟩
  | sendCmd cb len => exact assembleSendCmd_operandsThenOp cb len
  | sendData len => exact ⟨.sendData, [(.arg1, len)], rfl, rfl⟩
  | sendRawRegion x y w h =>
    exact ⟨.sendRawRegion, [(.arg1, packHalves x y), (.arg2, packHalves w h)], rfl, rfl⟩
  | setPix x y c => exact assembleFillRect_operandsThenOp x y 1 1 c
  | fillRows y h c => exact assembleFillRect_operandsThenOp 0 y 240 h c
  | sendCmd0 cb => exact assembleSendCmd_operandsThenOp cb 0
  | readReg off => exact absurd rfl (hread off)
  | writeReg off v => exact absurd rfl (hwrite off v)

/-- A raw READ that is served raises no fault (10_state.md R16); one outside the interface is refused (R23). -/
theorem run_read_faultCode {s t : State} {rest : List HostEvent} {width off : Nat}
    (hhost : s.host = .read width off :: rest) (hrun : Host.Core.run core 1 s = .next t) :
    t.faultCode = s.faultCode := by
  cases haccess : accessOk width off with
  | true =>
    cases hrun.symm.trans (run_next (k := 0) (step_read hhost haccess))
    rfl
  | false => cases hrun.symm.trans (run_refused (k := 0) (step_read_refused hhost haccess))

/-- Settles O60: a READ raises no fault, and every other line writes its operands before OP. -/
theorem assembledOperationWritesItsOperands : Obligations.AssembledOperationWritesItsOperands := by
  intro s t l rest hwrite hf hc hhost hrun
  by_cases hread : ∃ off, l = .readReg off
  · obtain ⟨off, rfl⟩ := hread
    rw [run_read_faultCode hhost hrun, hc]
    nofun
  · exact run_operandsThenOp (assemble_operandsThenOp l (not_exists.mp hread) hwrite) hf hc hhost hrun

end Sys2Proof.Proofs
end
